-- ==== Sys2Proof/Word.lean ====
section
/-! DEFINITION. The words of the interface: the 40-bit operation word (30_encoding R81), encoder samples and
histories (10_state R21), and the small named sets the operands and results are made of. -/

namespace Sys2Proof

/-- An operation word, 40 bits, bit 0 the least significant (R81, R54). -/
abbrev OpWord := BitVec 40

/-- A 2-bit encoder sample `{A, B}`: pin A is bit 1, pin B is bit 0 (R101). -/
abbrev Sample := BitVec 2

/-- The 4-bit history of an encoder channel: previous sample in bits 3:2, current sample in bits 1:0 (R21). -/
abbrev History := BitVec 4

/-- A logical button level (R24): code 0 is RELEASED, code 1 is PRESSED. -/
inductive Level where
  | released
  | pressed
deriving DecidableEq, Repr

/-- The kind of a button event (R44): code 1 is PRESS, code 0 is RELEASE. -/
inductive Kind where
  | release
  | press
deriving DecidableEq, Repr

/-- Why an operation is refused (R90), in the order of the tests. -/
inductive Reason where
  | reservedOpcode
  | reservedBits
  | badDiag
  | badChannel
  | badPhase
deriving DecidableEq, Repr

end Sys2Proof
end

