-- ==== Sys2Proof/Config.lean ====
section
/-! DEFINITION. The configuration (00_scope R8, 10_state R37): every width, count, constant table and mode the spec
names as a parameter, the constraints a configuration must satisfy (R10, R103), and the values this hardware takes.
The last part holds the values the spec leaves open, as constants without a body. -/

namespace Sys2Proof

/-- The polarity of an encoder channel, +1 or -1 (R105). -/
inductive Polarity where
  | plus
  | minus
deriving DecidableEq, Repr

/-- The factor a polarity stands for. -/
def Polarity.sign : Polarity → Int
  | .plus => 1
  | .minus => -1

/-- CDC_MODE (R8): how a queue index reaches the other side. -/
inductive CdcMode where
  /-- GRAY_SYNC: lagging copies HEAD_C and TAIL_P (R64). -/
  | graySync
  /-- SAME_DOMAIN: the copy is the index itself (R67). -/
  | sameDomain
deriving DecidableEq, Repr

/-- The parameters that fix the shape of the state: channel counts and register widths (R8). -/
structure Shape where
  /-- N_ENC, encoder channels. -/
  nEnc : Nat
  /-- N_BTN, button channels. -/
  nBtn : Nat
  /-- CH_W, width of a channel number. -/
  chW : Nat
  /-- ACC_W, width of an accumulator. -/
  accW : Nat
  /-- TS_W, width of a timestamp and of the clock. -/
  tsW : Nat
  /-- DIAG_W, width of a diagnostics counter. -/
  diagW : Nat
deriving DecidableEq, Repr

/-- The whole configuration (R8). It is fixed before reset and no operation writes it (R37). -/
structure Config extends Shape where
  /-- TT, the sixteen-entry transition table, indexed by the history (R102). -/
  tt : Vector Int 16
  /-- POL, one polarity per encoder channel (R105). -/
  pol : List Polarity
  /-- DEBOUNCE, the lockout window in clock units (R122). -/
  debounce : Nat
  /-- RESAMPLE_DELAY, the busy-wait before the re-sample; no rule reads it (R123). -/
  resampleDelay : Nat
  /-- QSIZE, the number of queue slots; QSIZE - 1 are usable (R141). -/
  qsize : Nat
  /-- IDX_W, width of a queue index. -/
  idxW : Nat
  /-- G_OFF, offset of the Gray mapping of an index (R66). -/
  gOff : Nat
  /-- EVENT_W, width of an event record (R44). -/
  eventW : Nat
  /-- CDC_MODE. -/
  cdc : CdcMode
  /-- DIAG_ATOMIC: RDDIAG returns the exact register (R72). -/
  diagAtomic : Bool
deriving DecidableEq, Repr

/-- The polarity of channel `e`; one entry per channel by `Config.wf`. -/
def Config.polOf (c : Config) (e : Nat) : Polarity := c.pol.getD e .plus

/-- TT[h]. -/
def ttAt (tt : Vector Int 16) (h : History) : Int := tt[h.toNat]'(h.isLt)

/-! ### Classes of histories (40_quadrature_decoder R106) -/

/-- The class of a history. -/
inductive HistoryClass where
  | identity
  | forward
  | reverse
  | illegal
deriving DecidableEq, Repr

/-- The next sample in the forward order 00, 01, 11, 10, 00 (R106). -/
def nextForward (p : Sample) : Sample :=
  if p = 0b00#2 then 0b01#2 else if p = 0b01#2 then 0b11#2 else if p = 0b11#2 then 0b10#2 else 0b00#2

/-- The previous sample, bits 3:2 of a history. -/
def History.previous (h : History) : Sample := h.extractLsb' 2 2

/-- The current sample, bits 1:0 of a history. -/
def History.current (h : History) : Sample := h.extractLsb' 0 2

/-- The class of a history (R106): equal samples, one step forward, one step back, or both bits changed. -/
def History.classOf (h : History) : HistoryClass :=
  if History.current h = History.previous h then .identity
  else if History.current h = nextForward (History.previous h) then .forward
  else if History.previous h = nextForward (History.current h) then .reverse
  else .illegal

/-- The history read in the other direction, `{c, p}` for `{p, c}` (R103 d). -/
def History.swap (h : History) : History := History.current h ++ History.previous h

/-- The sixteen histories. -/
def histories : List History := (List.range 16).map (BitVec.ofNat 4)

/-- The entries of a table at the histories of one class. -/
def entriesOf (tt : Vector Int 16) (k : HistoryClass) : List Int :=
  (histories.filter fun h => decide (History.classOf h = k)).map (ttAt tt)

/-- TT_WF (R103): (a) every entry is -1, 0 or +1; (b) identity and illegal codes give 0; (c) one forward code gives +1
and three give 0, one reverse code gives -1 and three give 0. -/
def ttWF (tt : Vector Int 16) : Bool :=
  histories.all (fun h => decide (ttAt tt h = -1 ∨ ttAt tt h = 0 ∨ ttAt tt h = 1))
  && (entriesOf tt .identity).all (· == 0) && (entriesOf tt .illegal).all (· == 0)
  && (entriesOf tt .forward).count 1 == 1 && (entriesOf tt .forward).count 0 == 3
  && (entriesOf tt .reverse).count (-1) == 1 && (entriesOf tt .reverse).count 0 == 3

/-- TT_SYM (R103 d): where a history gives +1 the swapped history gives -1. -/
def ttSym (tt : Vector Int 16) : Bool :=
  histories.all fun h => decide (ttAt tt h = 1 → ttAt tt (History.swap h) = -1)

/-! ### Constraints (00_scope R10) -/

/-- ceil(log2 n). -/
def ceilLog2 (n : Nat) : Nat := if n ≤ 1 then 0 else Nat.log2 (n - 1) + 1

/-- The configuration satisfies R10 (a) to (f); one polarity is given per encoder channel (R105). -/
def Config.wf (c : Config) : Bool :=
  decide (1 ≤ c.nEnc) && decide (1 ≤ c.nBtn) && decide (c.nEnc ≤ 2 ^ c.chW) && decide (c.nBtn ≤ 2 ^ c.chW)
  && decide (2 ≤ c.qsize) && decide (c.qsize % 2 = 0)
  && decide (c.idxW = ceilLog2 c.qsize) && decide (c.gOff = (2 ^ c.idxW - c.qsize) / 2)
  && ttWF c.tt
  && decide (1 ≤ c.debounce) && decide (c.debounce < 2 ^ (c.tsW - 1))
  && decide (2 ≤ c.accW) && decide (1 ≤ c.tsW) && decide (1 ≤ c.diagW) && decide (c.eventW = c.chW + 1 + c.tsW)
  && decide (c.pol.length = c.nEnc)

/-! ### Open values, without a body -/

/-- RESAMPLE_DELAY is left OPEN by the spec (D13); nothing reads it. -/
opaque openResampleDelay : Nat

/-- The draw RDDIAG returns for a producer-side register when DIAG_ATOMIC is false (R72, U6): any value of `w` bits,
a fresh one for each position of the stream. DESIGN CHOICE in form only, log entry 9. -/
opaque freeDiagnostic : (w : Nat) → Nat → BitVec w

/-- The zero extension of a value to a width below its own, which the spec does not define (R15): any value. DESIGN
CHOICE in form only, log entry 18. -/
opaque freeExtension : (n m : Nat) → BitVec m → BitVec n

/-! ### This hardware (00_scope R8, column "value") -/

/-- The default transition table: TT[0b1000] = +1, TT[0b0010] = -1, all others 0 (R102). -/
@[reducible] def defaultTable : Vector Int 16 := #v[0, 0, -1, 0, 0, 0, 0, 0, 1, 0, 0, 0, 0, 0, 0, 0]

/-- The parameter values this hardware takes (R8). -/
@[reducible] def Config.hw : Config where
  nEnc := 4
  nBtn := 4
  chW := 2
  accW := 32
  tsW := 32
  diagW := 32
  tt := defaultTable
  pol := [.plus, .plus, .plus, .plus]
  debounce := 50
  resampleDelay := openResampleDelay
  qsize := 20
  idxW := 5
  gOff := 6
  eventW := 35
  cdc := .graySync
  diagAtomic := true

end Sys2Proof
end

