-- ==== Sys2Proof/Syntax.lean ====
section
/-! DEFINITION. The operations of the block (30_encoding R80), one constructor per row of spec/opcode_table.json
(RDDIAG has one row per register, R83). Channel numbers and clock values are plain numbers: the operations are
structured data, and what the 40-bit word can carry is the check of WellFormed. -/

namespace Sys2Proof

/-- An operation of the block, with its operands in the order of R80. -/
inductive Instr where
  /-- ENC_EDGE e, A, B: an edge notification of encoder channel e with the sampled pins (R100). -/
  | encEdge (e : Nat) (a b : Bool)
  /-- BTN_EDGE b, LVL, RS, NOW: an edge notification of button channel b (R120). -/
  | btnEdge (b : Nat) (lvl rs : Level) (now : Nat)
  /-- PUSH ch, KIND, TS: offer one event to the queue (R140). -/
  | push (ch : Nat) (kind : Kind) (ts : Nat)
  /-- DRAIN: read and clear every accumulator and the activity flag (R170). -/
  | drain
  /-- POP.CHK: start a pop, test for empty (R146). -/
  | popChk
  /-- POP.RD: copy the event at the tail slot (R147). -/
  | popRd
  /-- POP.PUB: advance the tail and return the event (R148). -/
  | popPub
  /-- POP: the whole pop, not interrupted (R149). -/
  | pop
  /-- SIZE: advisory occupancy (R150). -/
  | size
  /-- RDDIAG 0: read PUSH_ATT (R175). -/
  | rddiag0
  /-- RDDIAG 1: read PUSH_OK (R175). -/
  | rddiag1
  /-- RDDIAG 2: read POP_ATT (R175). -/
  | rddiag2
  /-- RDDIAG 3: read POP_OK (R175). -/
  | rddiag3
  /-- RDDIAG 4: read DROP_CNT (R175). -/
  | rddiag4
  /-- RDDIAG 5: read LAST_CH (R175). -/
  | rddiag5
  /-- SYNC_H: bring the consumer's copy of HEAD up to date (R152). -/
  | syncH
  /-- SYNC_T: bring the producers' copy of TAIL up to date (R153). -/
  | syncT
  /-- RESET: put the block into its initial state (R220). -/
  | reset
deriving DecidableEq, Repr

end Sys2Proof
end

