-- ==== Sys2Proof/Machine/State.lean ====
section
/-! DEFINITION. The state of the block, the record of 10_state R20, over the widths of a configuration; the results
of operations (30_encoding R88); the model's faults and refusals; the machine's State and its value after reset. -/

namespace Sys2Proof.Machine

/-- A Button Event record (R44): channel, kind, clock value at the accepted edge. -/
structure Event (σ : Shape) where
  ch : BitVec σ.chW
  kind : Kind
  ts : BitVec σ.tsW
deriving DecidableEq, Repr

/-- The slot memory (R27, R50): the written slots as (index, record) pairs, indices strictly rising. An index that
is not listed is "unwritten" and has no value (R221). The unit is one slot; there is no smaller one. -/
abbrev Memory (σ : Shape) := List (Nat × Event σ)

/-- POP_PHASE (R32). -/
inductive PopPhase where
  /-- IDLE: no pop in flight. -/
  | idle
  /-- HAVE: POP.CHK found an event, the slot is not yet copied. -/
  | haveEvent
  /-- COPIED: the slot is in POP_LATCH, TAIL not yet advanced. -/
  | copied
deriving DecidableEq, Repr

/-- The six diagnostics registers an RDDIAG can name (R35), in the order of their numbers. -/
inductive DiagReg where
  | pushAtt
  | pushOk
  | popAtt
  | popOk
  | dropCnt
  | lastCh
deriving DecidableEq, Repr

/-- The statuses an operation can complete with (R191, codes 0 to 9). -/
inductive Status where
  | ok
  | full
  | empty
  | present
  | lockedOut
  | glitchRejected
  | alreadyPressed
  | releaseRecorded
  | accepted
  | acceptedDropped
deriving DecidableEq, Repr

/-- The result record of an operation (R88). -/
inductive Result (σ : Shape) where
  /-- A status without a value. -/
  | status (st : Status)
  /-- ENC_EDGE: the new history and the signed step. -/
  | stepped (h : History) (d : Int)
  /-- DRAIN: every accumulator and the activity bit. -/
  | drained (v : Vector (BitVec σ.accW) σ.nEnc) (act : Bool)
  /-- POP.PUB and POP: the event record. -/
  | event (ev : Event σ)
  /-- SIZE: the advisory occupancy. -/
  | occupancy (n : Nat)
  /-- RDDIAG: the register's value, zero-extended to DIAG_W bits. -/
  | diag (v : BitVec σ.diagW)
  /-- REFUSED(reason): the operation was refused and no state changed (R90). -/
  | refused (r : Reason)
deriving DecidableEq, Repr

/-- The state of the block (R20). -/
structure Block (σ : Shape) where
  /-- HIST[e], 4 bits per encoder channel (R21). -/
  hist : Vector History σ.nEnc
  /-- ACC[e], ACC_W bits two's complement per encoder channel (R22). -/
  acc : Vector (BitVec σ.accW) σ.nEnc
  /-- ENC_ACTIVITY (R23). -/
  encActivity : Bool
  /-- BLEVEL[b] (R24). -/
  blevel : Vector Level σ.nBtn
  /-- BTS[b], TS_W bits (R25). -/
  bts : Vector (BitVec σ.tsW) σ.nBtn
  /-- BTSV[b] (R26). -/
  btsv : Vector Bool σ.nBtn
  /-- SLOT[i] (R27). -/
  slot : Memory σ
  /-- HEAD, the next slot to write (R28). -/
  head : Nat
  /-- TAIL, the next slot to read (R29). -/
  tail : Nat
  /-- HEAD_C, the consumer's copy of HEAD (R30). -/
  headC : Nat
  /-- TAIL_P, the producers' copy of TAIL (R31). -/
  tailP : Nat
  /-- POP_PHASE (R32). -/
  popPhase : PopPhase
  /-- POP_LATCH, none while unwritten (R33). -/
  popLatch : Option (Event σ)
  /-- PUSH_ATT, DIAG_W bits (R35). -/
  pushAtt : BitVec σ.diagW
  /-- PUSH_OK (R35). -/
  pushOk : BitVec σ.diagW
  /-- DROP_CNT (R35). -/
  dropCnt : BitVec σ.diagW
  /-- LAST_CH, CH_W bits (R35). -/
  lastCh : BitVec σ.chW
  /-- POP_ATT (R35). -/
  popAtt : BitVec σ.diagW
  /-- POP_OK (R35). -/
  popOk : BitVec σ.diagW
deriving DecidableEq, Repr

/-- The block right after RESET (R220, R221). -/
def Block.reset (σ : Shape) : Block σ where
  hist := Vector.replicate σ.nEnc 0b0000#4
  acc := Vector.replicate σ.nEnc 0#σ.accW
  encActivity := false
  blevel := Vector.replicate σ.nBtn .released
  bts := Vector.replicate σ.nBtn 0#σ.tsW
  btsv := Vector.replicate σ.nBtn false
  slot := []
  head := 0
  tail := 0
  headC := 0
  tailP := 0
  popPhase := .idle
  popLatch := none
  pushAtt := 0#σ.diagW
  pushOk := 0#σ.diagW
  dropCnt := 0#σ.diagW
  lastCh := 0#σ.chW
  popAtt := 0#σ.diagW
  popOk := 0#σ.diagW

/-- Why a step can stop with a fault. None of these is the hardware's: the block has no fault state (R14). Each marks
a state no run reaches (R45, R47), where the spec asks for a visible failure and not a value. -/
inductive Fault where
  /-- POP.RD or POP reads a slot that was never written (R27, U7). Safe. -/
  | unwrittenSlot
  /-- POP.PUB reads POP_LATCH before any POP.RD wrote it (R33, U7). Safe. -/
  | unwrittenLatch
  /-- A slot access at an index of QSIZE or more, which does not exist (R50). Safe. -/
  | slotOutOfRange
  /-- The wire-level receiver of the crossing sees a word that is the image of no index (U9); no step raises it. Safe. -/
  | foreignWireWord
deriving DecidableEq, Repr

/-- Why the model itself refuses. An operation the spec refuses is NOT one of these: it completes with the result
REFUSED(reason) (R90), log entry 3. -/
inductive Refusal where
  /-- exec has no meaning for the instruction yet; raised by no arm of this model. Safe. -/
  | notModelled (mnemonic : String)
  /-- A configuration that breaks 00_scope R10 is refused before any run (U14); raised by Config.boot only. Safe. -/
  | badConfig
deriving DecidableEq, Repr

/-- The machine: the block of this hardware, the environment's stream of operation words not yet consumed and its
position (R92), and the result record of the last operation (R88). -/
structure State where
  /-- The state of the block (R20). -/
  block : Block Config.hw.toShape
  /-- The operation words still to be consumed, next one first (R92). Harness data, log entry 1. -/
  stream : List OpWord
  /-- The stream position: operations consumed so far, refused ones included (R40, R92). Log entry 1. -/
  sp : Nat
  /-- The result of the last operation, none before the first (R88). Log entry 4. -/
  ret : Option (Result Config.hw.toShape)
deriving DecidableEq, Repr

/-- The machine right after reset: the block as R220 leaves it, no operation offered and none consumed. -/
def State.reset : State where
  block := Block.reset Config.hw.toShape
  stream := []
  sp := 0
  ret := none

end Sys2Proof.Machine
end

