-- ==== Sys2Proof/Machine/Operands.lean ====
section
/-! DEFINITION. The narrowing functions of 00_scope R15, index arithmetic, and the assembly of every operand form:
channel numbers checked at the boundary (R11), samples and histories (R100, R101), clock values (R82), events (R44). -/

namespace Sys2Proof.Machine

/-! ### Narrowing (R15) -/

/-- `sat_N(v)`: clamp to -2^(N-1) .. 2^(N-1) - 1. -/
def sat (n : Nat) (v : Int) : Int := min (max v (-(2 ^ (n - 1)))) (2 ^ (n - 1) - 1)

/-- The saturating sum of an accumulator and a step (R104): formed over the integers, then clamped. -/
def satAdd {n : Nat} (x : BitVec n) (d : Int) : BitVec n := BitVec.ofInt n (sat n (x.toInt + d))

/-- `wrap_N(v)` of a natural number, as an N-bit value. -/
def wrap (n v : Nat) : BitVec n := BitVec.ofNat n v

/-- `zext_N(v)`: the same unsigned value. For a value wider than N bits the spec defines none, log entry 18. -/
def zext (n : Nat) {m : Nat} (v : BitVec m) : BitVec n := if m ≤ n then v.setWidth n else freeExtension n m v

/-- `sext_N(v)`. -/
def sext (n : Nat) {m : Nat} (v : BitVec m) : BitVec n := v.signExtend n

/-! ### Ring arithmetic on queue indices -/

/-- `(i + 1) mod QSIZE`. -/
def nextIndex (c : Config) (i : Nat) : Nat := (i + 1) % c.qsize

/-- `(x - y) mod QSIZE`, the remainder in 0 .. QSIZE - 1 (R15). -/
def ringSub (c : Config) (x y : Nat) : Nat := (((x : Int) - (y : Int)) % (c.qsize : Int)).toNat

/-! ### Channel operands (R11): out-of-range numbers are rejected at the boundary -/

/-- An encoder channel number, if it is one. -/
def encChannel (c : Config) (e : Nat) : Option (Fin c.nEnc) := if h : e < c.nEnc then some ⟨e, h⟩ else none

/-- A button channel number, if it is one. -/
def btnChannel (c : Config) (b : Nat) : Option (Fin c.nBtn) := if h : b < c.nBtn then some ⟨b, h⟩ else none

/-! ### Encoder operands -/

/-- The sample `{A, B}` (R101). -/
def sample (a b : Bool) : Sample := BitVec.ofBool a ++ BitVec.ofBool b

/-- `{HIST[1:0], s}`: the old current sample becomes the previous one (R100). -/
def shiftIn (h : History) (s : Sample) : History := History.current h ++ s

/-- The step `d = POL[e] * TT[h]` (R105). -/
def stepOf (c : Config) (e : Fin c.nEnc) (h : History) : Int := (c.polOf e).sign * ttAt c.tt h

/-! ### Clock and event operands -/

/-- NOW and TS as a TS_W-bit clock value (R82). A number IMM cannot carry is truncated, log entry 12. -/
def clockOf (c : Config) (v : Nat) : BitVec c.tsW := wrap c.tsW v

/-- The event record of button channel `ch` (R44). -/
def eventOf (c : Config) (ch : Fin c.nBtn) (kind : Kind) (ts : BitVec c.tsW) : Event c.toShape :=
  { ch := wrap c.chW ch, kind := kind, ts := ts }

/-- The code of a kind (R44): 1 PRESS, 0 RELEASE. -/
def kindCode : Kind → BitVec 1
  | .press => 1#1
  | .release => 0#1

/-- An event written as one number: `{ch, kind, ts}`, EVENT_W bits, ch in the high bits (R44). -/
def Event.toBits {σ : Shape} (ev : Event σ) : BitVec (σ.chW + 1 + σ.tsW) := ev.ch ++ kindCode ev.kind ++ ev.ts

/-- The event a number of EVENT_W bits stands for (R44). -/
def Event.ofBits (σ : Shape) (v : BitVec (σ.chW + 1 + σ.tsW)) : Event σ where
  ch := v.extractLsb' (σ.tsW + 1) σ.chW
  kind := if v.extractLsb' σ.tsW 1 = 1#1 then .press else .release
  ts := v.extractLsb' 0 σ.tsW

/-! ### Diagnostics operands (R35) -/

/-- The register number k of a diagnostics register. -/
def DiagReg.number : DiagReg → Nat
  | .pushAtt => 0
  | .pushOk => 1
  | .popAtt => 2
  | .popOk => 3
  | .dropCnt => 4
  | .lastCh => 5

/-- The exact value of a diagnostics register, zero-extended to DIAG_W bits (R175). -/
def Block.diagExact (c : Config) (b : Block c.toShape) : DiagReg → BitVec c.diagW
  | .pushAtt => b.pushAtt
  | .pushOk => b.pushOk
  | .popAtt => b.popAtt
  | .popOk => b.popOk
  | .dropCnt => b.dropCnt
  | .lastCh => zext c.diagW b.lastCh

/-- What a read of a diagnostics register returns at stream position `n` (R72, U6): the exact value if DIAG_ATOMIC;
otherwise, for the four producer-side registers, a free draw of DIAG_W bits (CH_W bits for LAST_CH). -/
def Block.diagRead (c : Config) (n : Nat) (b : Block c.toShape) (r : DiagReg) : BitVec c.diagW :=
  if c.diagAtomic then b.diagExact c r else
    match r with
    | .popAtt => b.diagExact c .popAtt
    | .popOk => b.diagExact c .popOk
    | .pushAtt => freeDiagnostic c.diagW n
    | .pushOk => freeDiagnostic c.diagW n
    | .dropCnt => freeDiagnostic c.diagW n
    | .lastCh => zext c.diagW (freeDiagnostic c.chW n)

end Sys2Proof.Machine
end

