-- ==== Sys2Proof/Machine/Flags.lean ====
section
/-! DEFINITION. Every condition the block tests and every flag-like value it returns: each side's view of the other
side's index (R64, R67), empty, full and the three occupancies (R141), the lockout (R121, R122), the activity flag
(R23), and the status codes (R191). -/

namespace Sys2Proof.Machine

/-! ### Views of the other side's index -/

/-- HEAD as the consumer sees it: the copy HEAD_C, or HEAD itself in SAME_DOMAIN (R30, R67). -/
def Block.headSeen (c : Config) (b : Block c.toShape) : Nat :=
  match c.cdc with
  | .graySync => b.headC
  | .sameDomain => b.head

/-- TAIL as the producers see it: the copy TAIL_P, or TAIL itself in SAME_DOMAIN (R31, R67). -/
def Block.tailSeen (c : Config) (b : Block c.toShape) : Nat :=
  match c.cdc with
  | .graySync => b.tailP
  | .sameDomain => b.tail

/-! ### Occupancy, empty and full (R141) -/

/-- `occ = (HEAD - TAIL) mod QSIZE`, the true occupancy. -/
def Block.occ (c : Config) (b : Block c.toShape) : Nat := ringSub c b.head b.tail

/-- `occ_c = (HEAD_C - TAIL) mod QSIZE`, the occupancy the consumer sees. -/
def Block.occC (c : Config) (b : Block c.toShape) : Nat := ringSub c (b.headSeen c) b.tail

/-- `occ_p = (HEAD - TAIL_P) mod QSIZE`, the occupancy the producers see. -/
def Block.occP (c : Config) (b : Block c.toShape) : Nat := ringSub c b.head (b.tailSeen c)

/-- Empty, as the consumer tests it: `HEAD_C == TAIL`. -/
def Block.isEmpty (c : Config) (b : Block c.toShape) : Bool := b.headSeen c == b.tail

/-- Full, as the producers test it: `(HEAD + 1) mod QSIZE == TAIL_P`. -/
def Block.isFull (c : Config) (b : Block c.toShape) : Bool := nextIndex c b.head == b.tailSeen c

/-! ### The lockout -/

/-- `elapsed = (NOW - BTS[b]) mod 2^TS_W` (R121). -/
def Block.elapsed (c : Config) (b : Block c.toShape) (n : Fin c.nBtn) (now : BitVec c.tsW) : Nat :=
  (now - b.bts[n]).toNat

/-- The edge is locked out: a transition was accepted before and the elapsed time is below DEBOUNCE, strictly (R122). -/
def Block.lockedOut (c : Config) (b : Block c.toShape) (n : Fin c.nBtn) (now : BitVec c.tsW) : Bool :=
  b.btsv[n] && decide (b.elapsed c n now < c.debounce)

/-! ### The activity flag -/

/-- ENC_ACTIVITY after a step `d`: set by any non-zero step, else as before (R23, R100). -/
def activityAfter (act : Bool) (d : Int) : Bool := act || decide (d ≠ 0)

/-! ### Codes (R191) -/

/-- The number of a status. -/
def Status.code : Status → Nat
  | .ok => 0
  | .full => 1
  | .empty => 2
  | .present => 3
  | .lockedOut => 4
  | .glitchRejected => 5
  | .alreadyPressed => 6
  | .releaseRecorded => 7
  | .accepted => 8
  | .acceptedDropped => 9

/-- The number of a refusal. -/
def refusalCode : Reason → Nat
  | .reservedOpcode => 16
  | .reservedBits => 17
  | .badDiag => 18
  | .badChannel => 19
  | .badPhase => 20

/-- The status code of a result; results that are values have none. -/
def Result.code {σ : Shape} : Result σ → Option Nat
  | .status st => some st.code
  | .refused r => some (refusalCode r)
  | .stepped _ _ => none
  | .drained _ _ => none
  | .event _ => none
  | .occupancy _ => none
  | .diag _ => none

end Sys2Proof.Machine
end

