-- ==== Sys2Proof/Machine/Ops.lean ====
section
/-! DEFINITION. The operations the meanings share: slot memory access (20_memory R51), the named updates of the state
record, the refusal (R90) and the phase requirement (R92), the procedure PUSH (42_event_queue R140), and how a
completed operation becomes a next state of the machine. The block takes no exception (60_exceptions R190); the
refusal is the one shared outcome beside completion. -/

namespace Sys2Proof.Machine

/-! ### The slot memory -/

/-- The record in slot `i`, none while it is unwritten. -/
def Memory.read {σ : Shape} : Memory σ → Nat → Option (Event σ)
  | [], _ => none
  | (j, e) :: rest, i => if i = j then some e else Memory.read rest i

/-- Slot `i` set to the record `ev`, all others as before. The list stays sorted by index. -/
def Memory.write {σ : Shape} : Memory σ → Nat → Event σ → Memory σ
  | [], i, ev => [(i, ev)]
  | (j, e) :: rest, i, ev =>
    if i < j then (i, ev) :: (j, e) :: rest
    else if i = j then (i, ev) :: rest
    else (j, e) :: Memory.write rest i ev

/-- Every index of the list is above `lo - 1`, rising strictly, and below `q`. -/
def Memory.wfFrom {σ : Shape} (q : Nat) : Nat → Memory σ → Bool
  | _, [] => true
  | lo, (j, _) :: rest => decide (lo ≤ j) && decide (j < q) && Memory.wfFrom q (j + 1) rest

/-- The canonical form: indices strictly rising, all below `q`, so that equal memories are equal lists. -/
def Memory.wf {σ : Shape} (q : Nat) (m : Memory σ) : Bool := Memory.wfFrom q 0 m

/-- `MemRead(i, 1)` (R51): the whole record. An index that does not exist or an unwritten slot has no value. -/
def memRead (c : Config) (m : Memory c.toShape) (i : Nat) : Except Fault (Event c.toShape) :=
  if i < c.qsize then
    match Memory.read m i with
    | some ev => .ok ev
    | none => .error .unwrittenSlot
  else .error .slotOutOfRange

/-- `MemWrite(i, 1, ev)` (R51): the whole slot. -/
def memWrite (c : Config) (m : Memory c.toShape) (i : Nat) (ev : Event c.toShape) : Except Fault (Memory c.toShape) :=
  if i < c.qsize then .ok (Memory.write m i ev) else .error .slotOutOfRange

/-! ### Named updates of the record -/

/-- ENC_EDGE's writes (R100): the history always; accumulator and activity only for a non-zero step. -/
def Block.decoded (c : Config) (b : Block c.toShape) (e : Fin c.nEnc) (h : History) (d : Int) : Block c.toShape :=
  { b with
    hist := b.hist.set e h
    acc := if d = 0 then b.acc else b.acc.set e (satAdd b.acc[e] d)
    encActivity := activityAfter b.encActivity d }

/-- DRAIN's writes (R170). -/
def Block.cleared (c : Config) (b : Block c.toShape) : Block c.toShape :=
  { b with acc := Vector.replicate c.nEnc 0#c.accW, encActivity := false }

/-- A press is accepted (R124): level, timestamp and valid bit. -/
def Block.pressedAt (c : Config) (b : Block c.toShape) (n : Fin c.nBtn) (now : BitVec c.tsW) : Block c.toShape :=
  { b with blevel := b.blevel.set n .pressed, bts := b.bts.set n now, btsv := b.btsv.set n true }

/-- A release is recorded (R126): the level only. -/
def Block.releasedAt (c : Config) (b : Block c.toShape) (n : Fin c.nBtn) : Block c.toShape :=
  { b with blevel := b.blevel.set n .released }

/-- A push attempt is counted (R140, first two lines). -/
def Block.attempted (c : Config) (b : Block c.toShape) (ch : BitVec c.chW) : Block c.toShape :=
  { b with pushAtt := b.pushAtt + 1, lastCh := ch }

/-- The offered event is dropped (R140, the full path). -/
def Block.dropped (c : Config) (b : Block c.toShape) : Block c.toShape := { b with dropCnt := b.dropCnt + 1 }

/-- The written slot is published (R140, R28): HEAD advances, the success is counted. -/
def Block.published (c : Config) (b : Block c.toShape) (m : Memory c.toShape) : Block c.toShape :=
  { b with slot := m, head := nextIndex c b.head, pushOk := b.pushOk + 1 }

/-- A pop attempt is counted (R146). -/
def Block.popTried (c : Config) (b : Block c.toShape) : Block c.toShape := { b with popAtt := b.popAtt + 1 }

/-- POP_PHASE set to `p`. -/
def Block.inPhase (c : Config) (b : Block c.toShape) (p : PopPhase) : Block c.toShape := { b with popPhase := p }

/-- The slot is copied into the latch (R147). -/
def Block.latched (c : Config) (b : Block c.toShape) (ev : Event c.toShape) : Block c.toShape :=
  { b with popLatch := some ev }

/-- TAIL advances and the success is counted (R148). -/
def Block.consumed (c : Config) (b : Block c.toShape) : Block c.toShape :=
  { b with tail := nextIndex c b.tail, popOk := b.popOk + 1 }

/-- SYNC_H's write (R152); in SAME_DOMAIN there is no copy to move (R67). -/
def Block.headCopied (c : Config) (b : Block c.toShape) : Block c.toShape :=
  { b with headC := if c.cdc = .graySync then b.head else b.headC }

/-- SYNC_T's write (R153); in SAME_DOMAIN there is no copy to move (R67). -/
def Block.tailCopied (c : Config) (b : Block c.toShape) : Block c.toShape :=
  { b with tailP := if c.cdc = .graySync then b.tail else b.tailP }

/-! ### Completion and refusal -/

/-- What an operation answers: the block after it and its result, or a fault of the model. -/
abbrev Completion (c : Config) := Except Fault (Block c.toShape × Result c.toShape)

/-- The operation completes in block `b` with result `r`. -/
def complete (c : Config) (b : Block c.toShape) (r : Result c.toShape) : Completion c := .ok (b, r)

/-- `refuse(reason)`: no state changes, the result is REFUSED(reason) (R15, R90). -/
def refuse (c : Config) (b : Block c.toShape) (r : Reason) : Completion c := complete c b (.refused r)

/-- `require POP_PHASE == p else refuse(BAD_PHASE)` (R92). -/
def requirePhase (c : Config) (p : PopPhase) (b : Block c.toShape) (k : Completion c) : Completion c :=
  if b.popPhase = p then k else refuse c b .badPhase

/-! ### The procedure PUSH (R140) -/

/-- Offer one event to the queue: count the attempt, test full, then write the slot and only then publish it. Answers
OK or FULL. -/
def Block.offer (c : Config) (b : Block c.toShape) (ev : Event c.toShape) : Except Fault (Block c.toShape × Status) :=
  let tried := b.attempted c ev.ch
  if tried.isFull c then .ok (tried.dropped c, .full)
  else
    match memWrite c tried.slot tried.head ev with
    | .ok m => .ok (tried.published c m, .ok)
    | .error f => .error f

/-! ### The machine around the block -/

/-- The machine after an operation: the block and its result; the stream and its position are step's affair. -/
def State.finish (s : State) : Completion Config.hw → Host.Outcome State Fault Refusal
  | .ok (b, r) => .next { s with block := b, ret := some r }
  | .error f => .fault f

end Sys2Proof.Machine
end

