-- ==== Sys2Proof/Machine/Button.lean ====
section
/-! DEFINITION. The debounced button monitor (41_button_monitor): BTN_EDGE. -/

namespace Sys2Proof.Machine

/-- The accepted path (R124): the push is attempted first; level, timestamp and valid bit are written whatever it
returns. -/
def Block.acceptPress (c : Config) (n : Fin c.nBtn) (now : BitVec c.tsW) (b : Block c.toShape) : Completion c :=
  match b.offer c (eventOf c n .press now) with
  | .error f => .error f
  | .ok (b', .ok) => complete c (b'.pressedAt c n now) (.status .accepted)
  | .ok (b', _) => complete c (b'.pressedAt c n now) (.status .acceptedDropped)

/-- The press path outside the lockout (R123, R125). -/
def Block.pressEdge (c : Config) (n : Fin c.nBtn) (rs : Level) (now : BitVec c.tsW) (b : Block c.toShape) :
    Completion c :=
  if b.blevel[n] = .pressed then complete c b (.status .alreadyPressed)
  else if rs ≠ .pressed then complete c b (.status .glitchRejected)
  else b.acceptPress c n now

/-- BTN_EDGE b, LVL, RS, NOW (R120): the lockout is tested first, then the level, the recorded level, the re-sample.
Refused with BAD_CHANNEL if b is no button channel. -/
def Block.btnEdge (c : Config) (btn : Nat) (lvl rs : Level) (now : Nat) (b : Block c.toShape) : Completion c :=
  match btnChannel c btn with
  | none => refuse c b .badChannel
  | some n =>
    if b.lockedOut c n (clockOf c now) then complete c b (.status .lockedOut)
    else
      match lvl with
      | .pressed => b.pressEdge c n rs (clockOf c now)
      | .released => complete c (b.releasedAt c n) (.status .releaseRecorded)

/-- The meaning of BTN_EDGE. -/
def execBtnEdge (b : Nat) (lvl rs : Level) (now : Nat) (s : State) : Host.Outcome State Fault Refusal :=
  s.finish (s.block.btnEdge Config.hw b lvl rs now)

end Sys2Proof.Machine
end

