-- ==== Sys2Proof/Machine/Decoder.lean ====
section
/-! DEFINITION. The quadrature decoder (40_quadrature_decoder): ENC_EDGE. -/

namespace Sys2Proof.Machine

/-- ENC_EDGE e, A, B (R100): the sample is shifted into HIST[e]; the step `POL[e] * TT[h]` goes to ACC[e] with
saturation and marks ENC_ACTIVITY. Refused with BAD_CHANNEL if e is no encoder channel. -/
def Block.encEdge (c : Config) (e : Nat) (a p : Bool) (b : Block c.toShape) : Completion c :=
  match encChannel c e with
  | none => refuse c b .badChannel
  | some ch =>
    let h := shiftIn b.hist[ch] (sample a p)
    let d := stepOf c ch h
    complete c (b.decoded c ch h d) (.stepped h d)

/-- The meaning of ENC_EDGE. -/
def execEncEdge (e : Nat) (a b : Bool) (s : State) : Host.Outcome State Fault Refusal :=
  s.finish (s.block.encEdge Config.hw e a b)

end Sys2Proof.Machine
end

