-- ==== Sys2Proof/Machine/Queue.lean ====
section
/-! DEFINITION. The event queue (42_event_queue): PUSH, POP.CHK, POP.RD, POP.PUB, POP, SIZE, SYNC_H, SYNC_T. -/

namespace Sys2Proof.Machine

/-- PUSH ch, KIND, TS (R140). Refused with BAD_CHANNEL, before anything is counted, if ch is no button channel. -/
def Block.push (c : Config) (ch : Nat) (kind : Kind) (ts : Nat) (b : Block c.toShape) : Completion c :=
  match btnChannel c ch with
  | none => refuse c b .badChannel
  | some n =>
    match b.offer c (eventOf c n kind (clockOf c ts)) with
    | .error f => .error f
    | .ok (b', st) => complete c b' (.status st)

/-- POP.CHK (R146): in IDLE, count the attempt and test for empty. -/
def Block.popChk (c : Config) (b : Block c.toShape) : Completion c :=
  requirePhase c .idle b <|
    let tried := b.popTried c
    if tried.isEmpty c then complete c tried (.status .empty)
    else complete c (tried.inPhase c .haveEvent) (.status .present)

/-- POP.RD (R147): in HAVE, copy the whole record at TAIL into POP_LATCH. -/
def Block.popRd (c : Config) (b : Block c.toShape) : Completion c :=
  requirePhase c .haveEvent b <|
    match memRead c b.slot b.tail with
    | .error f => .error f
    | .ok ev => complete c ((b.latched c ev).inPhase c .copied) (.status .ok)

/-- POP.PUB (R148): in COPIED, advance TAIL, count the success, return the latch. -/
def Block.popPub (c : Config) (b : Block c.toShape) : Completion c :=
  requirePhase c .copied b <|
    match b.popLatch with
    | none => .error .unwrittenLatch
    | some ev => complete c ((b.consumed c).inPhase c .idle) (.event ev)

/-- POP (R149): the three steps as one atomic transition. -/
def Block.pop (c : Config) (b : Block c.toShape) : Completion c :=
  requirePhase c .idle b <|
    let tried := b.popTried c
    if tried.isEmpty c then complete c tried (.status .empty)
    else
      match memRead c tried.slot tried.tail with
      | .error f => .error f
      | .ok ev => complete c ((tried.latched c ev).consumed c) (.event ev)

/-- SIZE (R150): the occupancy the consumer sees. -/
def Block.size (c : Config) (b : Block c.toShape) : Completion c :=
  requirePhase c .idle b (complete c b (.occupancy (b.occC c)))

/-- SYNC_H (R152). -/
def Block.syncH (c : Config) (b : Block c.toShape) : Completion c := complete c (b.headCopied c) (.status .ok)

/-- SYNC_T (R153). -/
def Block.syncT (c : Config) (b : Block c.toShape) : Completion c := complete c (b.tailCopied c) (.status .ok)

/-- The meaning of PUSH. -/
def execPush (ch : Nat) (kind : Kind) (ts : Nat) (s : State) : Host.Outcome State Fault Refusal :=
  s.finish (s.block.push Config.hw ch kind ts)

/-- The meaning of POP.CHK. -/
def execPopChk (s : State) : Host.Outcome State Fault Refusal := s.finish (s.block.popChk Config.hw)

/-- The meaning of POP.RD. -/
def execPopRd (s : State) : Host.Outcome State Fault Refusal := s.finish (s.block.popRd Config.hw)

/-- The meaning of POP.PUB. -/
def execPopPub (s : State) : Host.Outcome State Fault Refusal := s.finish (s.block.popPub Config.hw)

/-- The meaning of POP. -/
def execPop (s : State) : Host.Outcome State Fault Refusal := s.finish (s.block.pop Config.hw)

/-- The meaning of SIZE. -/
def execSize (s : State) : Host.Outcome State Fault Refusal := s.finish (s.block.size Config.hw)

/-- The meaning of SYNC_H. -/
def execSyncH (s : State) : Host.Outcome State Fault Refusal := s.finish (s.block.syncH Config.hw)

/-- The meaning of SYNC_T. -/
def execSyncT (s : State) : Host.Outcome State Fault Refusal := s.finish (s.block.syncT Config.hw)

end Sys2Proof.Machine
end

