-- ==== Sys2Proof/Machine/System.lean ====
section
/-! DEFINITION. The dispatcher's accesses and the system operations (43_dispatcher_and_system, 70_reset_and_hazards):
DRAIN, RDDIAG, RESET, and the admission of a configuration. -/

namespace Sys2Proof.Machine

/-- DRAIN (R170): every accumulator and the activity flag are read and cleared in one transition. -/
def Block.drain (c : Config) (b : Block c.toShape) : Completion c :=
  requirePhase c .idle b (complete c (b.cleared c) (.drained b.acc b.encActivity))

/-- RDDIAG of register `r` at stream position `n` (R175, R72). -/
def Block.rddiag (c : Config) (n : Nat) (r : DiagReg) (b : Block c.toShape) : Completion c :=
  requirePhase c .idle b (complete c b (.diag (b.diagRead c n r)))

/-- RESET (R220): accepted in any phase; the whole record goes to its initial state. -/
def Block.toReset (c : Config) (_ : Block c.toShape) : Completion c :=
  complete c (Block.reset c.toShape) (.status .ok)

/-- A configuration is checked once, before any run (R10, R225); one that fails is refused (U14). -/
def Config.boot (c : Config) : Host.Outcome (Block c.toShape) Fault Refusal :=
  if c.wf then .next (Block.reset c.toShape) else .refused .badConfig

/-- The meaning of DRAIN. -/
def execDrain (s : State) : Host.Outcome State Fault Refusal := s.finish (s.block.drain Config.hw)

/-- The meaning of RDDIAG 0, PUSH_ATT. -/
def execRddiag0 (s : State) : Host.Outcome State Fault Refusal := s.finish (s.block.rddiag Config.hw s.sp .pushAtt)

/-- The meaning of RDDIAG 1, PUSH_OK. -/
def execRddiag1 (s : State) : Host.Outcome State Fault Refusal := s.finish (s.block.rddiag Config.hw s.sp .pushOk)

/-- The meaning of RDDIAG 2, POP_ATT. -/
def execRddiag2 (s : State) : Host.Outcome State Fault Refusal := s.finish (s.block.rddiag Config.hw s.sp .popAtt)

/-- The meaning of RDDIAG 3, POP_OK. -/
def execRddiag3 (s : State) : Host.Outcome State Fault Refusal := s.finish (s.block.rddiag Config.hw s.sp .popOk)

/-- The meaning of RDDIAG 4, DROP_CNT. -/
def execRddiag4 (s : State) : Host.Outcome State Fault Refusal := s.finish (s.block.rddiag Config.hw s.sp .dropCnt)

/-- The meaning of RDDIAG 5, LAST_CH. -/
def execRddiag5 (s : State) : Host.Outcome State Fault Refusal := s.finish (s.block.rddiag Config.hw s.sp .lastCh)

/-- The meaning of RESET. The stream is the environment's and goes on. -/
def execReset (s : State) : Host.Outcome State Fault Refusal := s.finish (s.block.toReset Config.hw)

end Sys2Proof.Machine
end

