-- ==== Sys2Proof/Machine/Dispatch.lean ====
section
/-! DEFINITION. One arm per operation, each a direct call of its meaning. -/

namespace Sys2Proof.Machine

/-- The meaning of an operation (30_encoding R80). -/
def exec (i : Instr) (s : State) : Host.Outcome State Fault Refusal :=
  match i with
  | .encEdge e a b => Sys2Proof.Machine.execEncEdge e a b s
  | .btnEdge b lvl rs now => Sys2Proof.Machine.execBtnEdge b lvl rs now s
  | .push ch kind ts => Sys2Proof.Machine.execPush ch kind ts s
  | .drain => Sys2Proof.Machine.execDrain s
  | .popChk => Sys2Proof.Machine.execPopChk s
  | .popRd => Sys2Proof.Machine.execPopRd s
  | .popPub => Sys2Proof.Machine.execPopPub s
  | .pop => Sys2Proof.Machine.execPop s
  | .size => Sys2Proof.Machine.execSize s
  | .rddiag0 => Sys2Proof.Machine.execRddiag0 s
  | .rddiag1 => Sys2Proof.Machine.execRddiag1 s
  | .rddiag2 => Sys2Proof.Machine.execRddiag2 s
  | .rddiag3 => Sys2Proof.Machine.execRddiag3 s
  | .rddiag4 => Sys2Proof.Machine.execRddiag4 s
  | .rddiag5 => Sys2Proof.Machine.execRddiag5 s
  | .syncH => Sys2Proof.Machine.execSyncH s
  | .syncT => Sys2Proof.Machine.execSyncT s
  | .reset => Sys2Proof.Machine.execReset s

end Sys2Proof.Machine
end

