-- ==== Sys2Proof/WellFormed.lean ====
section
/-! DEFINITION. Which structured operations the 40-bit operation word can carry: a channel number must fit the two
bits of CH and a clock value the 32 bits of IMM (30_encoding R81, R82). -/

namespace Sys2Proof

/-- A channel number fits the field CH (R81). -/
def channelFits (ch : Nat) : Bool := decide (ch < 2 ^ 2)

/-- A clock value fits the field IMM (R81). -/
def immFits (v : Nat) : Bool := decide (v < 2 ^ 32)

/-- The operation can be written as one operation word (R81, R82). -/
def Instr.wf : Instr → Bool
  | .encEdge e _ _ => channelFits e
  | .btnEdge b _ _ now => channelFits b && immFits now
  | .push ch _ ts => channelFits ch && immFits ts
  | .drain => true
  | .popChk => true
  | .popRd => true
  | .popPub => true
  | .pop => true
  | .size => true
  | .rddiag0 => true
  | .rddiag1 => true
  | .rddiag2 => true
  | .rddiag3 => true
  | .rddiag4 => true
  | .rddiag5 => true
  | .syncH => true
  | .syncT => true
  | .reset => true

end Sys2Proof
end

