-- ==== Sys2Proof/Decode.lean ====
section
/-! DEFINITION. The operation word (30_encoding): its fields (R81, R82), the decoder with the refusals a word can
earn in the order of R90, the encoder, and the opcode map as rows of match and mask (R83). -/

namespace Sys2Proof

/-! ### Fields (R81) -/

/-- `w[hi:lo]` as an unsigned number (R15). -/
def bits (w : OpWord) (hi lo : Nat) : Nat := w.toNat / 2 ^ lo % 2 ^ (hi - lo + 1)

/-- OP, bits 39:36. -/
def opField (w : OpWord) : Nat := bits w 39 36

/-- CH, bits 35:34. -/
def chField (w : OpWord) : Nat := bits w 35 34

/-- X, bit 33. -/
def xBit (w : OpWord) : Bool := bits w 33 33 == 1

/-- Y, bit 32. -/
def yBit (w : OpWord) : Bool := bits w 32 32 == 1

/-- IMM, bits 31:0. -/
def immField (w : OpWord) : Nat := bits w 31 0

/-- K, bits 35:32, the same four bits as {CH, X, Y}. -/
def kField (w : OpWord) : Nat := bits w 35 32

/-! ### Codes of one-bit operands (R82) -/

/-- LVL and RS: 1 is PRESSED, 0 is RELEASED. -/
def Level.ofBit : Bool → Level
  | true => .pressed
  | false => .released

/-- The bit of a level. -/
def Level.bit : Level → Bool
  | .pressed => true
  | .released => false

/-- KIND: 1 is PRESS, 0 is RELEASE. -/
def Kind.ofBit : Bool → Kind
  | true => .press
  | false => .release

/-- The bit of a kind. -/
def Kind.bit : Kind → Bool
  | .press => true
  | .release => false

/-! ### Decoding -/

/-- A row whose bits 35:0 must all be zero (R83). -/
def decodePlain (w : OpWord) (i : Instr) : Except Reason Instr :=
  if bits w 35 0 = 0 then .ok i else .error .reservedBits

/-- RDDIAG: the must-be-zero bits are tested before the register number (R90). -/
def decodeRddiag (w : OpWord) : Except Reason Instr :=
  if immField w = 0 then
    match kField w with
    | 0 => .ok .rddiag0
    | 1 => .ok .rddiag1
    | 2 => .ok .rddiag2
    | 3 => .ok .rddiag3
    | 4 => .ok .rddiag4
    | 5 => .ok .rddiag5
    | _ => .error .badDiag
  else .error .reservedBits

/-- The operation a word stands for, or why it is refused (R83, R90, R91). Operation codes 0x0, 0xD and 0xE are
reserved; they are the ones the last line takes. -/
def decode (w : OpWord) : Except Reason Instr :=
  match opField w with
  | 0x1 => if immField w = 0 then .ok (.encEdge (chField w) (xBit w) (yBit w)) else .error .reservedBits
  | 0x2 => .ok (.btnEdge (chField w) (.ofBit (xBit w)) (.ofBit (yBit w)) (immField w))
  | 0x3 => if yBit w then .error .reservedBits else .ok (.push (chField w) (.ofBit (xBit w)) (immField w))
  | 0x4 => decodePlain w .drain
  | 0x5 => decodePlain w .popChk
  | 0x6 => decodePlain w .popRd
  | 0x7 => decodePlain w .popPub
  | 0x8 => decodePlain w .pop
  | 0x9 => decodePlain w .size
  | 0xA => decodeRddiag w
  | 0xB => decodePlain w .syncH
  | 0xC => decodePlain w .syncT
  | 0xF => decodePlain w .reset
  | _ => .error .reservedOpcode

/-! ### Encoding -/

/-- `W = {OP, CH, X, Y, IMM}` (R81). -/
def pack (op ch : Nat) (x y : Bool) (imm : Nat) : OpWord :=
  BitVec.ofNat 40 (op * 2 ^ 36 + ch * 2 ^ 34 + x.toNat * 2 ^ 33 + y.toNat * 2 ^ 32 + imm)

/-- A word with the operation code and every other bit zero. -/
def packPlain (op : Nat) : OpWord := pack op 0 false false 0

/-- RDDIAG k: the four bits 35:32 hold k (R81). -/
def packDiag (k : Nat) : OpWord := BitVec.ofNat 40 (0xA * 2 ^ 36 + k * 2 ^ 32)

/-- The operation word of a well-formed operation (R83). -/
def encode : Instr → OpWord
  | .encEdge e a b => pack 0x1 e a b 0
  | .btnEdge b lvl rs now => pack 0x2 b lvl.bit rs.bit now
  | .push ch kind ts => pack 0x3 ch kind.bit false ts
  | .drain => packPlain 0x4
  | .popChk => packPlain 0x5
  | .popRd => packPlain 0x6
  | .popPub => packPlain 0x7
  | .pop => packPlain 0x8
  | .size => packPlain 0x9
  | .rddiag0 => packDiag 0
  | .rddiag1 => packDiag 1
  | .rddiag2 => packDiag 2
  | .rddiag3 => packDiag 3
  | .rddiag4 => packDiag 4
  | .rddiag5 => packDiag 5
  | .syncH => packPlain 0xB
  | .syncT => packPlain 0xC
  | .reset => packPlain 0xF

/-! ### The opcode map as rows (R83) -/

/-- One row of the opcode map. -/
structure OpRow where
  mnemonic : String
  matchBits : OpWord
  mask : OpWord
deriving DecidableEq, Repr

/-- The row of an operation, as spec/opcode_table.json gives it. -/
def rowOf : Instr → OpRow
  | .encEdge _ _ _ => ⟨"ENC_EDGE", 0x1000000000#40, 0xF0FFFFFFFF#40⟩
  | .btnEdge _ _ _ _ => ⟨"BTN_EDGE", 0x2000000000#40, 0xF000000000#40⟩
  | .push _ _ _ => ⟨"PUSH", 0x3000000000#40, 0xF100000000#40⟩
  | .drain => ⟨"DRAIN", 0x4000000000#40, 0xFFFFFFFFFF#40⟩
  | .popChk => ⟨"POP.CHK", 0x5000000000#40, 0xFFFFFFFFFF#40⟩
  | .popRd => ⟨"POP.RD", 0x6000000000#40, 0xFFFFFFFFFF#40⟩
  | .popPub => ⟨"POP.PUB", 0x7000000000#40, 0xFFFFFFFFFF#40⟩
  | .pop => ⟨"POP", 0x8000000000#40, 0xFFFFFFFFFF#40⟩
  | .size => ⟨"SIZE", 0x9000000000#40, 0xFFFFFFFFFF#40⟩
  | .rddiag0 => ⟨"RDDIAG_0", 0xA000000000#40, 0xFFFFFFFFFF#40⟩
  | .rddiag1 => ⟨"RDDIAG_1", 0xA100000000#40, 0xFFFFFFFFFF#40⟩
  | .rddiag2 => ⟨"RDDIAG_2", 0xA200000000#40, 0xFFFFFFFFFF#40⟩
  | .rddiag3 => ⟨"RDDIAG_3", 0xA300000000#40, 0xFFFFFFFFFF#40⟩
  | .rddiag4 => ⟨"RDDIAG_4", 0xA400000000#40, 0xFFFFFFFFFF#40⟩
  | .rddiag5 => ⟨"RDDIAG_5", 0xA500000000#40, 0xFFFFFFFFFF#40⟩
  | .syncH => ⟨"SYNC_H", 0xB000000000#40, 0xFFFFFFFFFF#40⟩
  | .syncT => ⟨"SYNC_T", 0xC000000000#40, 0xFFFFFFFFFF#40⟩
  | .reset => ⟨"RESET", 0xF000000000#40, 0xFFFFFFFFFF#40⟩

/-- The eighteen rows. -/
def opTable : List OpRow :=
  [rowOf (.encEdge 0 false false), rowOf (.btnEdge 0 .released .released 0), rowOf (.push 0 .release 0),
   rowOf .drain, rowOf .popChk, rowOf .popRd, rowOf .popPub, rowOf .pop, rowOf .size,
   rowOf .rddiag0, rowOf .rddiag1, rowOf .rddiag2, rowOf .rddiag3, rowOf .rddiag4, rowOf .rddiag5,
   rowOf .syncH, rowOf .syncT, rowOf .reset]

/-- A word selects a row when `W and mask = match` (R83). -/
def OpRow.selects (r : OpRow) (w : OpWord) : Bool := w &&& r.mask == r.matchBits

/-! ### The host's reading of a table word -/

/-- The operation the decoder reads from an operation given as `nbits` bits `w`, bits above `nbits` zero: one word of
forty bits, moved as one number (R54). Log entry 16. -/
def decodeTableWord (nbits w : Nat) : Option Instr :=
  if w % 2 ^ nbits < 2 ^ 40 then (decode (BitVec.ofNat 40 (w % 2 ^ nbits))).toOption else none

end Sys2Proof
end

