-- ==== Sys2Proof/Machine/Stream.lean ====
section
/-! DEFINITION. The environment's stream of operation words (30_encoding R92, 10_state R40): what the next word is,
how it is consumed, how a word that is no operation is refused, and how words are offered. -/

namespace Sys2Proof.Machine

/-- The machine with one word consumed: `rest` is still to come, the position goes up by one (R92). -/
def State.advanced (s : State) (rest : List OpWord) : State := { s with stream := rest, sp := s.sp + 1 }

/-- A word that is no operation is refused: nothing changes but the result (R90). -/
def State.refusedWord (s : State) (r : Reason) : State := { s with ret := some (.refused r) }

/-- The word the environment offers next, before all others. -/
def State.offerWord (s : State) (w : OpWord) : State := { s with stream := w :: s.stream }

/-- The word a table entry stands for: one word of forty bits, the bits above `nbits` zero. -/
def tableWord (nbits w : Nat) : OpWord := BitVec.ofNat 40 (w % 2 ^ nbits)

end Sys2Proof.Machine
end

