-- ==== Sys2Proof/Machine/Step.lean ====
section
/-! DEFINITION. One step of the machine: the next operation word of the stream is consumed and, if it is an
operation, run; a word that is none is refused and still consumed (30_encoding R90, R92). With no word offered the
block waits (70_reset_and_hazards R222). -/

namespace Sys2Proof.Machine

/-- One step. -/
def step (s : State) : Host.Outcome State Fault Refusal :=
  match s.stream with
  | [] => .next s
  | w :: rest =>
    match decode w with
    | .ok i => exec i (s.advanced rest)
    | .error r => .next ((s.advanced rest).refusedWord r)

/-- The machine with that operation offered next. Log entries 1 and 16. -/
def State.withFetchWord (s : State) (nbits w : Nat) : State := s.offerWord (tableWord nbits w)

end Sys2Proof.Machine
end

