-- ==== Sys2Proof/Machine/Asm.lean ====
section
/-! DEFINITION. Harness shorthand: the pseudo-operations with a fixed expansion (30_encoding R94, 70_reset R226) and
the assembler lines of 30_encoding R93, read into operation words. What R93 does not say of blanks and errors is log
entry 17. -/

namespace Sys2Proof.Machine

/-! ### Pseudo-operations (R94) -/

/-- ENC_STEP e, s. -/
def encStep (e : Nat) (s : Sample) : List Instr := [.encEdge e (s.getLsbD 1) (s.getLsbD 0)]

/-- ENC_FWD e: one forward cycle, from sample 00. -/
def encFwd (e : Nat) : List Instr := encStep e 0b01#2 ++ encStep e 0b11#2 ++ encStep e 0b10#2 ++ encStep e 0b00#2

/-- ENC_REV e: one reverse cycle, from sample 00. -/
def encRev (e : Nat) : List Instr := encStep e 0b10#2 ++ encStep e 0b11#2 ++ encStep e 0b01#2 ++ encStep e 0b00#2

/-- BTN_PRESS b, NOW. -/
def btnPress (b now : Nat) : List Instr := [.btnEdge b .pressed .pressed now]

/-- BTN_GLITCH b, NOW. -/
def btnGlitch (b now : Nat) : List Instr := [.btnEdge b .pressed .released now]

/-- BTN_RELEASE b, NOW. -/
def btnRelease (b now : Nat) : List Instr := [.btnEdge b .released .released now]

/-- SYNC. -/
def syncBoth : List Instr := [.syncH, .syncT]

/-- Priming (R226): one ENC_EDGE per channel with the pins' levels at rest, then a DRAIN whose result is discarded.
DESIGN CHOICE, log entry 23: the channels in the order given, back to back, and one DRAIN for all of them. -/
def primeAll (levels : List (Nat × Bool × Bool)) : List Instr :=
  levels.map (fun p => .encEdge p.1 p.2.1 p.2.2) ++ [.drain]

/-! ### Reading a line (R93) -/

/-- A blank between words. -/
def isBlank (ch : Char) : Bool := ch == ' ' || ch == '\t'

/-- Blanks removed from both ends. -/
def trimBlanks (cs : List Char) : List Char := ((cs.dropWhile isBlank).reverse.dropWhile isBlank).reverse

/-- The text before a comment and before an expected result. -/
def codePart : List Char → List Char
  | [] => []
  | ';' :: _ => []
  | '=' :: '>' :: _ => []
  | ch :: rest => ch :: codePart rest

/-- The pieces between commas; a text without a comma is one piece. -/
def splitCommas : List Char → List (List Char)
  | [] => [[]]
  | ',' :: rest => [] :: splitCommas rest
  | ch :: rest =>
    match splitCommas rest with
    | [] => [[ch]]
    | p :: ps => (ch :: p) :: ps

/-- The value of a digit, decimal or hexadecimal. -/
def digitValue (ch : Char) : Option Nat :=
  if '0' ≤ ch ∧ ch ≤ '9' then some (ch.toNat - '0'.toNat)
  else if 'a' ≤ ch ∧ ch ≤ 'f' then some (ch.toNat - 'a'.toNat + 10)
  else if 'A' ≤ ch ∧ ch ≤ 'F' then some (ch.toNat - 'A'.toNat + 10)
  else none

/-- Digits in a base, most significant first, onto what stands before them. -/
def digitsOnto (base : Nat) : Nat → List Char → Option Nat
  | acc, [] => some acc
  | acc, ch :: rest =>
    match digitValue ch with
    | some d => if d < base then digitsOnto base (acc * base + d) rest else none
    | none => none

/-- A number: decimal, `0x` hexadecimal or `0b` binary, at least one digit. -/
def readNumber : List Char → Option Nat
  | [] => none
  | '0' :: 'x' :: [] => none
  | '0' :: 'b' :: [] => none
  | '0' :: 'x' :: cs => digitsOnto 16 0 cs
  | '0' :: 'b' :: cs => digitsOnto 2 0 cs
  | cs => digitsOnto 10 0 cs

/-- A number below a bound. -/
def readBelow (bound : Nat) (cs : List Char) : Option Nat :=
  match readNumber cs with
  | some v => if v < bound then some v else none
  | none => none

/-- A channel: RED, GREEN or a number CH can carry. -/
def readChannel (cs : List Char) : Option Nat :=
  if cs = "RED".toList then some 0 else if cs = "GREEN".toList then some 1 else readBelow 4 cs

/-- A one-bit operand, with the letters that may stand for 1 and for 0. -/
def readBit (one zero : String) (cs : List Char) : Option Bool :=
  if cs = one.toList then some true else if cs = zero.toList then some false
  else (readBelow 2 cs).map (· == 1)

/-- A clock value IMM can carry. -/
def readClock (cs : List Char) : Option Nat := readBelow (2 ^ 32) cs

/-- The operation codes of the mnemonics without operands (R83). -/
def plainCodes : List (String × Nat) :=
  [("DRAIN", 0x4), ("POP.CHK", 0x5), ("POP.RD", 0x6), ("POP.PUB", 0x7), ("POP", 0x8), ("SIZE", 0x9),
   ("SYNC_H", 0xB), ("SYNC_T", 0xC), ("RESET", 0xF)]

/-- The words of a mnemonic without operands. -/
def assemblePlain (name : List Char) : Option (List OpWord) :=
  if name = "SYNC".toList then some (syncBoth.map encode)
  else (plainCodes.find? fun p => p.1.toList = name).map fun p => [packPlain p.2]

/-- The words of a mnemonic with one operand. RDDIAG takes any K, 6 to 15 too: the word is then refused when it runs. -/
def assemble1 (name x : List Char) : Option (List OpWord) :=
  if name = "RDDIAG".toList then (readBelow 16 x).map fun k => [packDiag k]
  else if name = "ENC_FWD".toList then (readChannel x).map fun e => (encFwd e).map encode
  else if name = "ENC_REV".toList then (readChannel x).map fun e => (encRev e).map encode
  else none

/-- The words of a mnemonic with two operands. -/
def assemble2 (name x y : List Char) : Option (List OpWord) :=
  if name = "ENC_STEP".toList then
    match readChannel x, readBelow 4 y with
    | some e, some s => some ((encStep e (BitVec.ofNat 2 s)).map encode)
    | _, _ => none
  else
    match readChannel x, readClock y with
    | some b, some now =>
      if name = "BTN_PRESS".toList then some ((btnPress b now).map encode)
      else if name = "BTN_GLITCH".toList then some ((btnGlitch b now).map encode)
      else if name = "BTN_RELEASE".toList then some ((btnRelease b now).map encode)
      else none
    | _, _ => none

/-- The words of a mnemonic with three operands. -/
def assemble3 (name x y z : List Char) : Option (List OpWord) :=
  if name = "ENC_EDGE".toList then
    match readChannel x, readBit "1" "0" y, readBit "1" "0" z with
    | some e, some a, some b => some [pack 0x1 e a b 0]
    | _, _, _ => none
  else if name = "PUSH".toList then
    match readChannel x, readBit "PRESS" "RELEASE" y, readClock z with
    | some ch, some kind, some ts => some [pack 0x3 ch kind false ts]
    | _, _, _ => none
  else none

/-- The words of a mnemonic with four operands. -/
def assemble4 (name x y z t : List Char) : Option (List OpWord) :=
  if name = "BTN_EDGE".toList then
    match readChannel x, readBit "P" "R" y, readBit "P" "R" z, readClock t with
    | some b, some lvl, some rs, some now => some [pack 0x2 b lvl rs now]
    | _, _, _, _ => none
  else none

/-- A mnemonic with its operands. -/
def assembleOp (name : List Char) : List (List Char) → Option (List OpWord)
  | [] => assemblePlain name
  | [x] => assemble1 name x
  | [x, y] => assemble2 name x y
  | [x, y, z] => assemble3 name x y z
  | [x, y, z, t] => assemble4 name x y z t
  | _ => none

/-- One line: no word for a blank or comment line, none at all for a line that is not of the form (R93). -/
def assembleLine (line : List Char) : Option (List OpWord) :=
  let code := trimBlanks (codePart line)
  if code = [] then some []
  else
    let name := code.takeWhile (fun ch => !isBlank ch)
    let rest := trimBlanks (code.dropWhile (fun ch => !isBlank ch))
    if rest = [] then assembleOp name [] else assembleOp name ((splitCommas rest).map trimBlanks)

/-- A stream written as lines, one operation per line. -/
def assemble : List String → Option (List OpWord)
  | [] => some []
  | l :: rest =>
    match assembleLine l.toList, assemble rest with
    | some ws, some more => some (ws ++ more)
    | _, _ => none

end Sys2Proof.Machine
end

