-- ==== Sys2Proof/Machine/Crossing.lean ====
section
/-! DEFINITION. The code words on the crossing wires (20_memory R66), one level below the operations: no operation
reads them; SYNC_H and SYNC_T move plain indices. Log entry 15. -/

namespace Sys2Proof.Machine

/-- `gray(n) = n xor (n >> 1)`. -/
def gray {n : Nat} (v : BitVec n) : BitVec n := v ^^^ (v >>> 1)

/-- The inverse of gray: bit k is the exclusive-or of the bits from the top down to k. -/
def ungray {n : Nat} (w : BitVec n) : BitVec n := (List.range n).foldl (fun v k => v ^^^ (w >>> k)) 0#n

/-- `G(i) = gray(i + G_OFF)`, the word an index crosses as. -/
def wireWord (c : Config) (i : Nat) : BitVec c.idxW := gray (BitVec.ofNat c.idxW (i + c.gOff))

/-- `i = ungray(w) - G_OFF`, if the word is the image of an index. -/
def wireIndex (c : Config) (w : BitVec c.idxW) : Option Nat :=
  let v := (ungray w).toNat
  if c.gOff ≤ v ∧ v < c.gOff + c.qsize then some (v - c.gOff) else none

/-- What a receiver can read while the wires change from `old` to `new`: each bit from one or the other, as `pick`
chooses. -/
def glimpse {n : Nat} (pick old new : BitVec n) : BitVec n := (old &&& pick) ||| (new &&& ~~~pick)

/-- The receiving side's register of HEAD loaded from the wires; a word that is no index is a fault (U9). -/
def Block.headReceived (c : Config) (w : BitVec c.idxW) (b : Block c.toShape) : Except Fault (Block c.toShape) :=
  match wireIndex c w with
  | some i => .ok { b with headC := i }
  | none => .error .foreignWireWord

/-- The receiving side's register of TAIL loaded from the wires. -/
def Block.tailReceived (c : Config) (w : BitVec c.idxW) (b : Block c.toShape) : Except Fault (Block c.toShape) :=
  match wireIndex c w with
  | some i => .ok { b with tailP := i }
  | none => .error .foreignWireWord

end Sys2Proof.Machine
end

