-- ==== Sys2Proof/Machine/Perform.lean ====
section
/-! DEFINITION. The block as a labelled transition system over ANY configuration (00_scope R7, R10: "a model run at
other values takes operations as structured data"): one transition per operation, runs of operations, and the run-time
expansions of 30_encoding R94. exec is this at the values this hardware takes. -/

namespace Sys2Proof.Machine

/-- One atomic transition of the block (R7, R80), the `n`-th of a run; `n` only selects the free draw of R72. -/
def perform (c : Config) (n : Nat) (i : Instr) (b : Block c.toShape) : Completion c :=
  match i with
  | .encEdge e a p => b.encEdge c e a p
  | .btnEdge btn lvl rs now => b.btnEdge c btn lvl rs now
  | .push ch kind ts => b.push c ch kind ts
  | .drain => b.drain c
  | .popChk => b.popChk c
  | .popRd => b.popRd c
  | .popPub => b.popPub c
  | .pop => b.pop c
  | .size => b.size c
  | .rddiag0 => b.rddiag c n .pushAtt
  | .rddiag1 => b.rddiag c n .pushOk
  | .rddiag2 => b.rddiag c n .popAtt
  | .rddiag3 => b.rddiag c n .popOk
  | .rddiag4 => b.rddiag c n .dropCnt
  | .rddiag5 => b.rddiag c n .lastCh
  | .syncH => b.syncH c
  | .syncT => b.syncT c
  | .reset => b.toReset c

/-- What a run leaves for an observer: each operation with its result (R9). -/
abbrev Trace (σ : Shape) := List (Instr × Result σ)

/-- A run of operations from position `n`: the block at the end and the trace (R58, R92). -/
def runOps (c : Config) : Nat → List Instr → Block c.toShape → Except Fault (Block c.toShape × Trace c.toShape)
  | _, [], b => .ok (b, [])
  | n, i :: rest, b =>
    match perform c n i b with
    | .error f => .error f
    | .ok (b', r) =>
      match runOps c (n + 1) rest b' with
      | .error f => .error f
      | .ok (b'', t) => .ok (b'', (i, r) :: t)

/-! ### Pseudo-operations that expand by the results they see (R94) -/

/-- POP3: POP.CHK, then, only if it returned PRESENT, POP.RD and POP.PUB. -/
def pop3 (c : Config) (n : Nat) (b : Block c.toShape) : Except Fault (Block c.toShape × Trace c.toShape) :=
  match perform c n .popChk b with
  | .error f => .error f
  | .ok (b', .status .present) =>
    match runOps c (n + 1) [.popRd, .popPub] b' with
    | .error f => .error f
    | .ok (b'', t) => .ok (b'', (.popChk, .status .present) :: t)
  | .ok (b', r) => .ok (b', [(.popChk, r)])

/-- DRAINQ: POP repeated while it returns an event, at most `fuel` times. Log entry 19. -/
def drainQ (c : Config) : Nat → Nat → Block c.toShape → Except Fault (Block c.toShape × Trace c.toShape)
  | 0, _, b => .ok (b, [])
  | fuel + 1, n, b =>
    match perform c n .pop b with
    | .error f => .error f
    | .ok (b', .event ev) =>
      match drainQ c fuel (n + 1) b' with
      | .error f => .error f
      | .ok (b'', t) => .ok (b'', (.pop, .event ev) :: t)
    | .ok (b', r) => .ok (b', [(.pop, r)])

/-- LOOP_ITER: DRAIN, then DRAINQ: one iteration of the main loop as far as the block sees it (R94, R178). With no
producer in between, QSIZE pops reach the EMPTY that ends the drain. -/
def loopIter (c : Config) (n : Nat) (b : Block c.toShape) : Except Fault (Block c.toShape × Trace c.toShape) :=
  match perform c n .drain b with
  | .error f => .error f
  | .ok (b', r) =>
    match drainQ c c.qsize (n + 1) b' with
    | .error f => .error f
    | .ok (b'', t) => .ok (b'', (.drain, r) :: t)

end Sys2Proof.Machine
end

