-- ==== Sys2Proof/Machine/Interface.lean ====
section
/-! DEFINITION. Who does what at the block's boundary: agents and contexts (00_scope R6, 60_exceptions R204), the
operations each may issue (30_encoding R80), the interrupt lines, their handlers and the order in which simultaneous
notifications are served (R194, R199), and what the consumer observes (R9, R88). -/

namespace Sys2Proof.Machine

/-- The agents of R6. -/
inductive Agent where
  | enc (e : Nat)
  | btn (b : Nat)
  | consumer
  | syncH
  | syncT
  | environment
deriving DecidableEq, Repr

/-- The contexts of R204. -/
inductive Context where
  | int
  | loop
  | sync
deriving DecidableEq, Repr

/-- The context an agent belongs to; the environment has none (R6). -/
def Agent.context : Agent → Option Context
  | .enc _ => some .int
  | .btn _ => some .int
  | .consumer => some .loop
  | .syncH => some .sync
  | .syncT => some .sync
  | .environment => none

/-- The context of an operation (R80). -/
def contextOf : Instr → Option Context
  | .encEdge _ _ _ => some .int
  | .btnEdge _ _ _ _ => some .int
  | .push _ _ _ => some .int
  | .drain => some .loop
  | .popChk => some .loop
  | .popRd => some .loop
  | .popPub => some .loop
  | .pop => some .loop
  | .size => some .loop
  | .rddiag0 => some .loop
  | .rddiag1 => some .loop
  | .rddiag2 => some .loop
  | .rddiag3 => some .loop
  | .rddiag4 => some .loop
  | .rddiag5 => some .loop
  | .syncH => some .sync
  | .syncT => some .sync
  | .reset => none

/-- The agent may issue the operation (R6, R80): ENC[e] and BTN[b] their own channel's edges, any producer a PUSH, the
CONSUMER the LOOP operations, each synchroniser its own step, the ENVIRONMENT a RESET. -/
def mayIssue (a : Agent) (i : Instr) : Bool :=
  match i with
  | .encEdge e _ _ => a == .enc e
  | .btnEdge b _ _ _ => a == .btn b
  | .push _ _ _ => a.context == some .int
  | .syncH => a == .syncH
  | .syncT => a == .syncT
  | .reset => a == .environment
  | .drain => a == .consumer
  | .popChk => a == .consumer
  | .popRd => a == .consumer
  | .popPub => a == .consumer
  | .pop => a == .consumer
  | .size => a == .consumer
  | .rddiag0 => a == .consumer
  | .rddiag1 => a == .consumer
  | .rddiag2 => a == .consumer
  | .rddiag3 => a == .consumer
  | .rddiag4 => a == .consumer
  | .rddiag5 => a == .consumer

/-! ### Interrupt lines (R194) -/

/-- A pin line that notifies on both its edges. -/
inductive Line where
  | encA (e : Nat)
  | encB (e : Nat)
  | btn (b : Nat)
deriving DecidableEq, Repr

/-- The handler a line starts; the two lines of an encoder channel start the same one. -/
def Line.handler : Line → Agent
  | .encA e => .enc e
  | .encB e => .enc e
  | .btn b => .btn b

/-- The 2 x N_ENC + N_BTN lines of the block. -/
def lines (c : Config) : List Line :=
  (List.range c.nEnc).map .encA ++ (List.range c.nEnc).map .encB ++ (List.range c.nBtn).map .btn

/-- The N_ENC + N_BTN handlers, in the order of service: encoder channels, then button channels, each from 0 (R199). -/
def handlers (c : Config) : List Agent :=
  (List.range c.nEnc).map .enc ++ (List.range c.nBtn).map .btn

/-- The order in which an implementation serves the notifications waiting at one instant (R199). The model's streams
are not bound to it: the environment orders them freely. DESIGN CHOICE, log entry 22: notifications of one channel that
wait at one instant (both lines of an encoder, or one line twice) are one run of its handler; how many are remembered
is left to the environment (R196). -/
def serviceOrder (c : Config) (waiting : List Line) : List Agent :=
  (handlers c).filter fun h => (waiting.map Line.handler).contains h

/-! ### What the consumer observes (R9, R88) -/

/-- The context a result is returned to; none for SYNC and RESET, whose result goes to nobody (R88). -/
def returnedTo (i : Instr) : Option Context :=
  match contextOf i with
  | some .int => some .int
  | some .loop => some .loop
  | some .sync => none
  | none => none

/-- The sequence of results returned to the CONSUMER, the only thing a claim about the block may speak of (R9). -/
def consumerView {σ : Shape} (t : Trace σ) : List (Result σ) :=
  (t.filter fun p => returnedTo p.1 == some .loop).map Prod.snd

end Sys2Proof.Machine
end

