-- ==== Sys2Proof/Safety.lean ====
section
/-! DEFINITION. What counts as a safe run, in the words the claims use: the invariant of every reachable state
(10_state R45 to R48), who may write what (R42), the phases of the consumer (30_encoding R92), the live events and
what a trace says was pushed, popped, stepped and drained (20_memory R61, R70). -/

namespace Sys2Proof.Machine

/-! ### The invariant (R45 to R48) -/

/-- The invariant of every reachable state of the block, for any configuration. -/
structure Block.Inv (c : Config) (b : Block c.toShape) : Prop where
  /-- R45: HEAD is an index. -/
  head_lt : b.head < c.qsize
  /-- R45: TAIL is an index. -/
  tail_lt : b.tail < c.qsize
  /-- R45: HEAD_C is an index. -/
  headC_lt : b.headC < c.qsize
  /-- R45: TAIL_P is an index. -/
  tailP_lt : b.tailP < c.qsize
  /-- R45: LAST_CH is a button channel. -/
  lastCh_lt : b.lastCh.toNat < c.nBtn
  /-- R46: going round from TAIL_P one meets TAIL before HEAD_C. -/
  order_tail : ringSub c b.tail (b.tailSeen c) ≤ ringSub c (b.headSeen c) (b.tailSeen c)
  /-- R46: and HEAD_C before HEAD. -/
  order_head : ringSub c (b.headSeen c) (b.tailSeen c) ≤ ringSub c b.head (b.tailSeen c)
  /-- R27, R50: the slot memory has its canonical form and no index outside 0 .. QSIZE - 1. -/
  slot_wf : Memory.wf c.qsize b.slot = true
  /-- R47: every slot from TAIL up to but not including HEAD is written. -/
  live_written : ∀ k < b.occ c, Memory.read b.slot ((b.tail + k) % c.qsize) ≠ none
  /-- R147: a pop is in flight only over an event the consumer has seen. -/
  pending : b.popPhase ≠ .idle → b.headSeen c ≠ b.tail
  /-- R47, R59 b: in phase COPIED the latch holds the record still at TAIL. -/
  latched : b.popPhase = .copied → b.popLatch ≠ none ∧ b.popLatch = Memory.read b.slot b.tail
  /-- R48: PUSH_ATT = PUSH_OK + DROP_CNT, modulo 2^DIAG_W. -/
  push_count : b.pushAtt = b.pushOk + b.dropCnt
  /-- R48: PUSH_OK - POP_OK is the occupancy, modulo 2^DIAG_W. -/
  pop_count : b.pushOk - b.popOk = BitVec.ofNat c.diagW (b.occ c)
  /-- R170 d: without activity every accumulator is zero. -/
  quiet : b.encActivity = false → ∀ e : Fin c.nEnc, b.acc[e] = 0#c.accW
  /-- R26: before the first accepted press of a channel its level and timestamp are those of reset. -/
  unarmed : ∀ n : Fin c.nBtn, b.btsv[n] = false → b.blevel[n] = .released ∧ b.bts[n] = 0#c.tsW

/-- R48, second identity: POP_OK is at most POP_ATT, and strictly below it while a pop is in flight, whose attempt is
counted and whose success is not yet. It holds as long as neither counter has wrapped, so it is no part of the invariant
of every reachable state; an operation that does not wrap POP_ATT keeps it. -/
def Block.popsCounted {σ : Shape} (b : Block σ) : Prop :=
  b.popOk.toNat + (if b.popPhase = .idle then 0 else 1) ≤ b.popAtt.toNat

/-- The invariant of the machine. The stream and the last result are the environment's and are not restricted. -/
def State.Inv (s : State) : Prop := s.block.Inv Config.hw

/-! ### Single-writer discipline (R42) -/

/-- The pieces of the record R20, each register of a file by its number. -/
inductive Field where
  | hist (e : Nat)
  | acc (e : Nat)
  | encActivity
  | blevel (b : Nat)
  | bts (b : Nat)
  | btsv (b : Nat)
  | slot (i : Nat)
  | head
  | tail
  | headC
  | tailP
  | popPhase
  | popLatch
  | pushAtt
  | pushOk
  | dropCnt
  | lastCh
  | popAtt
  | popOk
deriving DecidableEq, Repr

/-- The field has the same content in both blocks. -/
def Block.sameAt {σ : Shape} (b t : Block σ) : Field → Prop
  | .hist e => b.hist[e]? = t.hist[e]?
  | .acc e => b.acc[e]? = t.acc[e]?
  | .encActivity => b.encActivity = t.encActivity
  | .blevel n => b.blevel[n]? = t.blevel[n]?
  | .bts n => b.bts[n]? = t.bts[n]?
  | .btsv n => b.btsv[n]? = t.btsv[n]?
  | .slot i => Memory.read b.slot i = Memory.read t.slot i
  | .head => b.head = t.head
  | .tail => b.tail = t.tail
  | .headC => b.headC = t.headC
  | .tailP => b.tailP = t.tailP
  | .popPhase => b.popPhase = t.popPhase
  | .popLatch => b.popLatch = t.popLatch
  | .pushAtt => b.pushAtt = t.pushAtt
  | .pushOk => b.pushOk = t.pushOk
  | .dropCnt => b.dropCnt = t.dropCnt
  | .lastCh => b.lastCh = t.lastCh
  | .popAtt => b.popAtt = t.popAtt
  | .popOk => b.popOk = t.popOk

/-- What a push may write, when HEAD is `head`: the slot at HEAD, HEAD and the push diagnostics (R42, second column). -/
def pushWrites (head : Nat) : Field → Bool
  | .slot i => i == head
  | .head => true
  | .pushAtt => true
  | .pushOk => true
  | .dropCnt => true
  | .lastCh => true
  | _ => false

/-- What a pop may write (R42, fourth column). -/
def popWrites : Field → Bool
  | .tail => true
  | .popPhase => true
  | .popLatch => true
  | .popAtt => true
  | .popOk => true
  | _ => false

/-- The cells of the table of R42 that say "write", for an operation issued when HEAD is `head`. RESET, which R42 does
not list, may write every field (R220). -/
def mayWrite (i : Instr) (head : Nat) (f : Field) : Bool :=
  match i with
  | .encEdge e _ _ =>
    match f with
    | .hist e' => e' == e
    | .acc e' => e' == e
    | .encActivity => true
    | _ => false
  | .btnEdge b _ _ _ =>
    match f with
    | .blevel b' => b' == b
    | .bts b' => b' == b
    | .btsv b' => b' == b
    | _ => pushWrites head f
  | .push _ _ _ => pushWrites head f
  | .drain =>
    match f with
    | .acc _ => true
    | .encActivity => true
    | _ => false
  | .popChk => popWrites f
  | .popRd => popWrites f
  | .popPub => popWrites f
  | .pop => popWrites f
  | .syncH => f == .headC
  | .syncT => f == .tailP
  | .reset => true
  | .size => false
  | .rddiag0 => false
  | .rddiag1 => false
  | .rddiag2 => false
  | .rddiag3 => false
  | .rddiag4 => false
  | .rddiag5 => false

/-! ### The consumer's phases (R92) -/

/-- The table of R92: the operations POP_PHASE allows. Operations of INT, SYNC and RESET are never refused for phase. -/
def phaseAllows (p : PopPhase) (i : Instr) : Bool :=
  if contextOf i = some .loop then
    match p with
    | .idle => i != .popRd && i != .popPub
    | .haveEvent => i == .popRd
    | .copied => i == .popPub
  else true

/-- The last column of R92: POP_PHASE after an operation that was not refused, given its result. -/
def phaseAfter {σ : Shape} (p : PopPhase) (i : Instr) (r : Result σ) : PopPhase :=
  match i with
  | .popChk => if r = .status .present then .haveEvent else p
  | .popRd => .copied
  | .popPub => .idle
  | .reset => .idle
  | _ => p

/-- No operation of the trace was refused for its phase: the stream was well-formed (R92). -/
def Trace.wellFormed {σ : Shape} (t : Trace σ) : Bool := t.all fun p => p.2 != .refused .badPhase

/-! ### Live, pushed and popped events (R61, R141) -/

/-- The live events, oldest first: slots TAIL, TAIL + 1, ..., HEAD - 1 (R141). -/
def Block.live (c : Config) (b : Block c.toShape) : List (Option (Event c.toShape)) :=
  (List.range (b.occ c)).map fun k => Memory.read b.slot ((b.tail + k) % c.qsize)

/-- The event an operation put into the queue: the operands of a PUSH that returned OK, the press of a BTN_EDGE that
returned ACCEPTED (R124, R140). -/
def pushedBy (c : Config) (i : Instr) (r : Result c.toShape) : List (Option (Event c.toShape)) :=
  match i with
  | .push ch kind ts =>
    if r = .status .ok then [some { ch := wrap c.chW ch, kind := kind, ts := clockOf c ts }] else []
  | .btnEdge b _ _ now =>
    if r = .status .accepted then [some { ch := wrap c.chW b, kind := .press, ts := clockOf c now }] else []
  | _ => []

/-- The event an operation returned to the consumer: that of a POP.PUB or a POP (R148, R149). -/
def poppedBy {σ : Shape} (i : Instr) (r : Result σ) : List (Option (Event σ)) :=
  match i, r with
  | .popPub, .event ev => [some ev]
  | .pop, .event ev => [some ev]
  | _, _ => []

/-- The events the trace pushed, in run order. -/
def Trace.pushed (c : Config) (t : Trace c.toShape) : List (Option (Event c.toShape)) :=
  t.flatMap fun p => pushedBy c p.1 p.2

/-- The events the trace popped, in run order. -/
def Trace.popped {σ : Shape} (t : Trace σ) : List (Option (Event σ)) := t.flatMap fun p => poppedBy p.1 p.2

/-! ### Ticks (R70) -/

/-- The step an operation gave channel `e`: the step ENC_EDGE e returned (R100). -/
def steppedBy {σ : Shape} (e : Nat) (i : Instr) (r : Result σ) : Int :=
  match i, r with
  | .encEdge e' _ _, .stepped _ d => if e' = e then d else 0
  | _, _ => 0

/-- The ticks an operation delivered for channel `e`: the value DRAIN returned for it (R170). -/
def drainedBy {σ : Shape} (e : Fin σ.nEnc) (r : Result σ) : Int :=
  match r with
  | .drained v _ => v[e].toInt
  | _ => 0

/-- The sum of the steps of channel `e` over a trace. -/
def Trace.stepped {σ : Shape} (e : Nat) (t : Trace σ) : Int := (t.map fun p => steppedBy e p.1 p.2).sum

/-- The sum of the ticks of channel `e` delivered over a trace. -/
def Trace.drained {σ : Shape} (e : Fin σ.nEnc) (t : Trace σ) : Int := (t.map fun p => drainedBy e p.2).sum

/-- The trace saturates no accumulator of channel `e` that starts it at `v`: no partial sum of steps since the last
drain leaves the range of ACC_W bits (R70, R104). -/
def Trace.unsaturated {σ : Shape} (e : Fin σ.nEnc) : Int → Trace σ → Prop
  | _, [] => True
  | v, (i, r) :: rest =>
    -(2 ^ (σ.accW - 1)) ≤ v + steppedBy e i r ∧ v + steppedBy e i r ≤ 2 ^ (σ.accW - 1) - 1 ∧
    Trace.unsaturated e (v + steppedBy e i r - drainedBy e r) rest

/-! ### Assumptions about the environment, by the names of spec/92_eei_decisions.md

A_ONE_CONSUMER is Trace.wellFormed, A_DRAINED is Trace.unsaturated, A_SERIAL is built in (an operation is one
transition); A_SYNC_FAIR speaks of infinite runs and is out of scope (log entry 14). -/

/-- A_NO_BARE_PUSH: the stream holds no PUSH outside BTN_EDGE. -/
def noBarePush (ops : List Instr) : Bool :=
  ops.all fun i =>
    match i with
    | .push _ _ _ => false
    | _ => true

/-- The clock values of the edges of a stream, in order. -/
def clocks (ops : List Instr) : List Nat :=
  ops.filterMap fun i =>
    match i with
    | .btnEdge _ _ _ now => some now
    | _ => none

/-- A_MONO, its first half: NOW does not decrease along the stream. -/
def clocksRise (ops : List Instr) : Bool := ((clocks ops).zip (clocks ops).tail).all fun p => decide (p.1 ≤ p.2)

/-- A_PRIMED: the stream begins, per encoder channel, with an edge at the pins' levels at rest, then a DRAIN (R226).
DESIGN CHOICE, log entry 23: channels 0 to N_ENC - 1 in rising order, back to back, one DRAIN for all, at the head of
the stream. The spec fixes none of these, so this asks more of a stream than A_PRIMED does. -/
def primed (c : Config) (levels : List (Nat × Bool × Bool)) (ops : List Instr) : Prop :=
  levels.map Prod.fst = List.range c.nEnc ∧ primeAll levels <+: ops

end Sys2Proof.Machine
end

