-- ==== Sys2Proof/Certificates/Slice0/Obligations.lean ====
section
/-! DEFINITION. The statements for the provers. Those about `perform`, `runOps` or a Config hold for every
configuration that satisfies 00_scope R10; those about `exec` and `step` are about the machine at this hardware's
values. -/

open Sys2Proof Sys2Proof.Machine

/-! ### Encoding (30_encoding) -/

/-- Every well-formed operation is read back from its word (R81, R83). -/
def Obligations.DecodeReadsBackEveryEncodedOperation : Prop :=
  ∀ i : Instr, i.wf = true → decode (encode i) = .ok i

/-- A word that decodes to an operation is that operation's word, and the operation is well-formed. -/
def Obligations.DecodedOperationHasExactlyItsWord : Prop :=
  ∀ (w : OpWord) (i : Instr), decode w = .ok i → i.wf = true ∧ encode i = w

/-- The decoder reads a word as the operation of the row it selects, so no word selects two rows (R83). -/
def Obligations.DecoderFollowsTheOpcodeMap : Prop :=
  (∀ (w : OpWord) (i : Instr), decode w = .ok i → rowOf i ∈ opTable ∧ w &&& (rowOf i).mask = (rowOf i).matchBits) ∧
  (∀ (w : OpWord), ∀ r ∈ opTable, w &&& r.mask = r.matchBits → ∃ i, decode w = .ok i ∧ rowOf i = r)

/-- Which words are refused, and with which reason, in the order of R90: the operation code first, then the
must-be-zero bits, then the register number of RDDIAG. -/
def Obligations.WordsAreRefusedInTheOrderOfTheTests : Prop :=
  ∀ (w : OpWord),
    let op := w.extractLsb' 36 4
    let reservedOp := op = 0x0#4 ∨ op = 0xD#4 ∨ op = 0xE#4
    let strayBit := ((op = 0x1#4 ∨ op = 0xA#4) ∧ w.extractLsb' 0 32 ≠ 0#32) ∨ (op = 0x3#4 ∧ w.getLsbD 32 = true) ∨
      ((op = 0x4#4 ∨ op = 0x5#4 ∨ op = 0x6#4 ∨ op = 0x7#4 ∨ op = 0x8#4 ∨ op = 0x9#4 ∨ op = 0xB#4 ∨ op = 0xC#4 ∨
        op = 0xF#4) ∧ w.extractLsb' 0 36 ≠ 0#36)
    (decode w = .error .reservedOpcode ↔ reservedOp) ∧
    (decode w = .error .reservedBits ↔ ¬ reservedOp ∧ strayBit) ∧
    (decode w = .error .badDiag ↔ ¬ reservedOp ∧ ¬ strayBit ∧ op = 0xA#4 ∧ 5 < (w.extractLsb' 32 4).toNat) ∧
    decode w ≠ .error .badChannel ∧ decode w ≠ .error .badPhase

/-- A few words written out from the encoding (R83). -/
def Obligations.WrittenOutWordsDecodeToTheirOperations : Prop :=
  decode 0x1100000000#40 = .ok (.encEdge 0 false true) ∧ decode 0x1E00000000#40 = .ok (.encEdge 3 true false) ∧
  decode 0x2700000041#40 = .ok (.btnEdge 1 .pressed .pressed 65) ∧
  decode 0x3A00000007#40 = .ok (.push 2 .press 7) ∧ decode 0x4000000000#40 = .ok .drain ∧
  decode 0xA400000000#40 = .ok .rddiag4 ∧ decode 0xF000000000#40 = .ok .reset ∧
  decode 0x0000000000#40 = .error .reservedOpcode ∧ decode 0xFFFFFFFFFF#40 = .error .reservedBits ∧
  decode 0xA600000000#40 = .error .badDiag

/-- An event written as EVENT_W bits is read back, and its fields stand where R44 puts them. -/
def Obligations.EventRecordLayout : Prop :=
  (∀ (σ : Shape) (ev : Event σ), Event.ofBits σ ev.toBits = ev) ∧
  (∀ (σ : Shape) (v : BitVec (σ.chW + 1 + σ.tsW)), (Event.ofBits σ v).toBits = v) ∧
  (∀ (σ : Shape) (ev : Event σ),
    ev.toBits.toNat = ev.ch.toNat * 2 ^ (σ.tsW + 1) + (if ev.kind = .press then 1 else 0) * 2 ^ σ.tsW + ev.ts.toNat)

/-! ### The step -/

/-- A step runs the operation its next word decodes to; around exec it consumes the word and advances the position. -/
def Obligations.StepRunsTheDecodedOperation : Prop :=
  ∀ (s : State) (w : OpWord) (rest : List OpWord) (i : Instr), s.stream = w :: rest → decode w = .ok i →
    step s = exec i { s with stream := rest, sp := s.sp + 1 } ∧
    ∀ t, exec i s = .next t → t.stream = s.stream ∧ t.sp = s.sp ∧
      step s = .next { t with stream := rest, sp := s.sp + 1 }

/-- A word that is no operation is refused with no change to the block, and still advances the position (R90). -/
def Obligations.StepRefusesAWordThatIsNoOperation : Prop :=
  ∀ (s : State) (w : OpWord) (rest : List OpWord) (r : Reason), s.stream = w :: rest → decode w = .error r →
    step s = .next { s with stream := rest, sp := s.sp + 1, ret := some (.refused r) }

/-- With no word offered the machine waits. The model's choice, log entry 2. -/
def Obligations.StepWaitsForAnOperation : Prop := ∀ s : State, s.stream = [] → step s = .next s

/-! ### Invariant and safety -/

/-- The block after reset satisfies the invariant, for every configuration that passes R10, this hardware's included. -/
def Obligations.ResetSatisfiesTheInvariant : Prop :=
  (∀ c : Config, c.wf = true → (Block.reset c.toShape).Inv c) ∧ State.reset.Inv

/-- Every operation keeps the invariant of R45 to R48, for every configuration. -/
def Obligations.EveryOperationKeepsTheInvariant : Prop :=
  ∀ (c : Config), c.wf = true → ∀ (n : Nat) (i : Instr) (b b' : Block c.toShape) (r : Result c.toShape),
    b.Inv c → perform c n i b = .ok (b', r) → b'.Inv c

/-- Every step of the machine keeps the invariant. -/
def Obligations.EveryStepKeepsTheInvariant : Prop :=
  ∀ s t : State, s.Inv → step s = .next t → t.Inv

/-- Under the invariant no operation faults: every operation completes or is refused as a result (R14, R47). -/
def Obligations.NoOperationFaultsUnderTheInvariant : Prop :=
  ∀ (c : Config), c.wf = true → ∀ (n : Nat) (i : Instr) (b : Block c.toShape),
    b.Inv c → ∃ b' r, perform c n i b = .ok (b', r)

/-- Under the invariant every step of the machine has a next state: nothing is stuck (R14). -/
def Obligations.EveryStepHasANextState : Prop := ∀ s : State, s.Inv → ∃ t, step s = .next t ∧ t.Inv

/-- The single-writer discipline as the frame of every operation: a field whose cell in R42 does not say "write" keeps
its content; a slot other than the one at HEAD, and every slot for an operation that pushes nothing, reads as before. -/
def Obligations.FieldsAreWrittenOnlyByTheirOwners : Prop :=
  ∀ (i : Instr) (s t : State), exec i s = .next t →
    t.stream = s.stream ∧ t.sp = s.sp ∧
    ∀ f : Field, mayWrite i s.block.head f = false → s.block.sameAt t.block f

/-- A refused operation changes no state of the block (R90). -/
def Obligations.RefusedOperationsChangeNothing : Prop :=
  ∀ (i : Instr) (s t : State) (r : Reason), exec i s = .next t → t.ret = some (.refused r) → t.block = s.block

/-- BAD_PHASE is answered exactly when POP_PHASE does not allow the operation (R90, R92). -/
def Obligations.BadPhaseExactlyWhenThePhaseForbids : Prop :=
  ∀ (i : Instr) (s : State),
    (phaseAllows s.block.popPhase i = false → exec i s = .next { s with ret := some (.refused .badPhase) }) ∧
    (∀ t, exec i s = .next t → t.ret = some (.refused .badPhase) → phaseAllows s.block.popPhase i = false)

/-- POP_PHASE after an operation that was not refused is the last column of R92. -/
def Obligations.PhaseAfterAnOperation : Prop :=
  ∀ (i : Instr) (s t : State) (r : Result Config.hw.toShape),
    exec i s = .next t → t.ret = some r → (∀ why, r ≠ .refused why) →
      t.block.popPhase = phaseAfter s.block.popPhase i r

/-- A channel number out of range is refused with BAD_CHANNEL before anything is written (R11, R90). -/
def Obligations.OutOfRangeChannelsAreRefused : Prop :=
  ∀ (c : Config) (n : Nat) (b : Block c.toShape),
    (∀ e a p, c.nEnc ≤ e → perform c n (.encEdge e a p) b = .ok (b, .refused .badChannel)) ∧
    (∀ k lvl rs now, c.nBtn ≤ k → perform c n (.btnEdge k lvl rs now) b = .ok (b, .refused .badChannel)) ∧
    (∀ ch kind ts, c.nBtn ≤ ch → perform c n (.push ch kind ts) b = .ok (b, .refused .badChannel))

/-- A configuration is admitted exactly if it satisfies R10, and this hardware's does. -/
def Obligations.BootAdmitsExactlyTheLegalConfigurations : Prop :=
  Config.hw.wf = true ∧
  ∀ c : Config, (c.wf = true → Config.boot c = .next (Block.reset c.toShape)) ∧
    (c.wf = false → Config.boot c = .refused .badConfig)

/-! ### The quadrature decoder (40_quadrature_decoder) -/

/-- ENC_EDGE on a channel of this hardware: the new history, the step of the default table, the saturating count, the
activity flag; nothing else changes (R100, R101, R102, R104). -/
def Obligations.EncEdgeCompletes : Prop :=
  ∀ (s : State) (e : Nat) (a p : Bool) (he : e < 4),
    let h : History := (s.block.hist[e]'he).extractLsb' 0 2 ++ BitVec.ofBool a ++ BitVec.ofBool p
    let v : BitVec 32 := s.block.acc[e]'he
    exec (.encEdge e a p) s = .next { s with
      block := { s.block with
        hist := s.block.hist.set e h he
        acc :=
          if h = 0b1000#4 then s.block.acc.set e (if v = 0x7FFFFFFF#32 then v else v + 1#32) he
          else if h = 0b0010#4 then s.block.acc.set e (if v = 0x80000000#32 then v else v - 1#32) he
          else s.block.acc
        encActivity := s.block.encActivity || h == 0b1000#4 || h == 0b0010#4 }
      ret := some (.stepped h (if h = 0b1000#4 then 1 else if h = 0b0010#4 then -1 else 0)) }

/-- ENC_EDGE over any width, table and polarity: the history is shifted, the step is POL[e] * TT[h]; a step that is not
zero is added over the integers and clamped, and sets the activity flag, at the bounds too; a zero step changes neither
(R100, R104, R105). -/
def Obligations.EncEdgeStepsAndSaturates : Prop :=
  ∀ (c : Config), c.wf = true → ∀ (n e : Nat) (a p : Bool) (b b' : Block c.toShape) (h : History) (d : Int)
    (he : e < c.nEnc), perform c n (.encEdge e a p) b = .ok (b', .stepped h d) →
    h = (b.hist[e]'he).extractLsb' 0 2 ++ sample a p ∧ d = (c.polOf e).sign * ttAt c.tt h ∧
    b'.hist = b.hist.set e h he ∧
    (d ≠ 0 → (b'.acc[e]'he).toInt = min (max ((b.acc[e]'he).toInt + d) (-(2 ^ (c.accW - 1)))) (2 ^ (c.accW - 1) - 1) ∧
      b'.encActivity = true) ∧
    (d = 0 → b'.acc = b.acc ∧ b'.encActivity = b.encActivity)

/-- An edge whose sample equals the channel's previous sample counts nothing, for every legal table and polarity
(R107). -/
def Obligations.RepeatedSampleCountsNothing : Prop :=
  ∀ (c : Config), c.wf = true → ∀ (n e : Nat) (a p : Bool) (b : Block c.toShape) (he : e < c.nEnc),
    (b.hist[e]'he).extractLsb' 0 2 = sample a p →
    perform c n (.encEdge e a p) b =
      .ok ({ b with hist := b.hist.set e (sample a p ++ sample a p) he }, .stepped (sample a p ++ sample a p) 0)

/-- An edge that skips a sample (both bits changed) counts nothing but is recorded, for every legal table and polarity
(R108). -/
def Obligations.SkippedCodeCountsNothing : Prop :=
  ∀ (c : Config), c.wf = true → ∀ (n e : Nat) (a p : Bool) (b : Block c.toShape) (he : e < c.nEnc),
    (b.hist[e]'he).extractLsb' 0 2 = ~~~ sample a p →
    perform c n (.encEdge e a p) b =
      .ok ({ b with hist := b.hist.set e (~~~ sample a p ++ sample a p) he }, .stepped (~~~ sample a p ++ sample a p) 0)

/-- The legal tables are those with one +1 at a forward code, one -1 at a reverse code and 0 elsewhere; TT_SYM says that
the reversal of the code with +1 has -1; the default table has both (R103, R106). -/
def Obligations.LegalTablesHaveOneEntryEachWay : Prop :=
  (ttWF defaultTable = true ∧ ttSym defaultTable = true) ∧
  ∀ tt : Vector Int 16,
    (ttWF tt = true ↔ ∃ f ∈ [0b0001#4, 0b0111#4, 0b1110#4, 0b1000#4], ∃ r ∈ [0b0010#4, 0b1011#4, 0b1101#4, 0b0100#4],
      ∀ h : History, ttAt tt h = if h = f then 1 else if h = r then -1 else 0) ∧
    (ttWF tt = true → (ttSym tt = true ↔
      ∀ h : History, ttAt tt h = 1 → ttAt tt (h.extractLsb' 0 2 ++ h.extractLsb' 2 2) = -1))

/-- With a legal table that has TT_SYM, a walk of legal steps that returns to the sample it began at counts exactly its
whole turns: four times the count is the forward steps less the reverse steps, so no phantom count survives (R110). -/
def Obligations.ClosedWalkCountsWholeTurns : Prop :=
  ∀ (tt : Vector Int 16), ttWF tt = true → ttSym tt = true → ∀ (start : Sample) (walk : List Sample),
    let codes : List History := List.zipWith (fun (p s : Sample) => (p ++ s : History)) (start :: walk) walk
    (start :: walk).getLast? = some start →
    (∀ h ∈ codes, History.classOf h = .forward ∨ History.classOf h = .reverse) →
    4 * (codes.map (ttAt tt)).sum =
      (codes.countP fun h => History.classOf h = .forward : Nat) - (codes.countP fun h => History.classOf h = .reverse : Nat)

/-- Edges of different encoder channels commute: each sees and leaves what it would alone (R70, R100). -/
def Obligations.EncoderChannelsAreIndependent : Prop :=
  ∀ (c : Config) (n e e' : Nat) (a p a' p' : Bool) (b b1 b2 b1' b2' : Block c.toShape) (r1 r2 r1' r2' : Result c.toShape),
    e ≠ e' →
    perform c n (.encEdge e a p) b = .ok (b1, r1) → perform c n (.encEdge e' a' p') b1 = .ok (b2, r2) →
    perform c n (.encEdge e' a' p') b = .ok (b1', r2') → perform c n (.encEdge e a p) b1' = .ok (b2', r1') →
    b2 = b2' ∧ r1 = r1' ∧ r2 = r2'

/-- No tick is lost or duplicated: over any run without RESET that saturates no accumulator, what DRAIN returned for a
channel plus what is left is what was there plus the steps of its edges (R70). -/
def Obligations.TicksAreDeliveredExactlyOnce : Prop :=
  ∀ (c : Config), c.wf = true → ∀ (n : Nat) (ops : List Instr) (b b' : Block c.toShape) (t : Trace c.toShape)
    (e : Fin c.nEnc), Instr.reset ∉ ops → runOps c n ops b = .ok (b', t) → Trace.unsaturated e b.acc[e].toInt t →
    Trace.drained e t + b'.acc[e].toInt = b.acc[e].toInt + Trace.stepped e.val t

/-! ### The button monitor (41_button_monitor) -/

/-- An edge inside the window is ignored whatever its level: nothing is written (R122). -/
def Obligations.BtnEdgeInsideTheWindowIsIgnored : Prop :=
  ∀ (s : State) (b : Nat) (lvl rs : Level) (now : Nat) (hb : b < 4),
    s.block.btsv[b]'hb = true → (BitVec.ofNat 32 now - s.block.bts[b]'hb).toNat < 50 →
    exec (.btnEdge b lvl rs now) s = .next { s with ret := some (.status .lockedOut) }

/-- A press edge on a channel recorded PRESSED, outside the window, writes nothing (R125). -/
def Obligations.BtnEdgeWhilePressedChangesNothing : Prop :=
  ∀ (s : State) (b : Nat) (rs : Level) (now : Nat) (hb : b < 4),
    ¬ (s.block.btsv[b]'hb = true ∧ (BitVec.ofNat 32 now - s.block.bts[b]'hb).toNat < 50) →
    s.block.blevel[b]'hb = .pressed →
    exec (.btnEdge b .pressed rs now) s = .next { s with ret := some (.status .alreadyPressed) }

/-- A press edge whose re-sample reads RELEASED, outside the window and recorded RELEASED, writes nothing (R123). -/
def Obligations.BtnEdgeGlitchChangesNothing : Prop :=
  ∀ (s : State) (b : Nat) (now : Nat) (hb : b < 4),
    ¬ (s.block.btsv[b]'hb = true ∧ (BitVec.ofNat 32 now - s.block.bts[b]'hb).toNat < 50) →
    s.block.blevel[b]'hb = .released →
    exec (.btnEdge b .pressed .released now) s = .next { s with ret := some (.status .glitchRejected) }

/-- A release edge outside the window writes the level only: not the timestamp, not the valid bit, no event (R126). -/
def Obligations.BtnEdgeReleaseWritesTheLevelOnly : Prop :=
  ∀ (s : State) (b : Nat) (rs : Level) (now : Nat) (hb : b < 4),
    ¬ (s.block.btsv[b]'hb = true ∧ (BitVec.ofNat 32 now - s.block.bts[b]'hb).toNat < 50) →
    exec (.btnEdge b .released rs now) s = .next { s with
      block := { s.block with blevel := s.block.blevel.set b .released hb }
      ret := some (.status .releaseRecorded) }

/-- A confirmed press outside the window with room in the queue: the event goes to the slot at HEAD, HEAD and the push
diagnostics advance, level, timestamp and valid bit are written; every other slot reads as before (R124, R140). -/
def Obligations.BtnEdgeAcceptedIsQueued : Prop :=
  ∀ (s : State) (b : Nat) (now : Nat) (hb : b < 4),
    ¬ (s.block.btsv[b]'hb = true ∧ (BitVec.ofNat 32 now - s.block.bts[b]'hb).toNat < 50) →
    s.block.blevel[b]'hb = .released → s.block.head < 20 → (s.block.head + 1) % 20 ≠ s.block.tailP →
    ∃ m, exec (.btnEdge b .pressed .pressed now) s = .next { s with
        block := { s.block with
          slot := m
          head := (s.block.head + 1) % 20
          pushAtt := s.block.pushAtt + 1
          pushOk := s.block.pushOk + 1
          lastCh := BitVec.ofNat 2 b
          blevel := s.block.blevel.set b .pressed hb
          bts := s.block.bts.set b (BitVec.ofNat 32 now) hb
          btsv := s.block.btsv.set b true hb }
        ret := some (.status .accepted) } ∧
      ∀ i, Memory.read m i =
        if i = s.block.head then some { ch := BitVec.ofNat 2 b, kind := .press, ts := BitVec.ofNat 32 now }
        else Memory.read s.block.slot i

/-- A confirmed press with the queue full as the producers see it: the event is dropped and counted, the level,
timestamp and valid bit are written all the same, no slot and no index changes (R124, R140). -/
def Obligations.BtnEdgeAcceptedButDropped : Prop :=
  ∀ (s : State) (b : Nat) (now : Nat) (hb : b < 4),
    ¬ (s.block.btsv[b]'hb = true ∧ (BitVec.ofNat 32 now - s.block.bts[b]'hb).toNat < 50) →
    s.block.blevel[b]'hb = .released → (s.block.head + 1) % 20 = s.block.tailP →
    exec (.btnEdge b .pressed .pressed now) s = .next { s with
      block := { s.block with
        pushAtt := s.block.pushAtt + 1
        dropCnt := s.block.dropCnt + 1
        lastCh := BitVec.ofNat 2 b
        blevel := s.block.blevel.set b .pressed hb
        bts := s.block.bts.set b (BitVec.ofNat 32 now) hb
        btsv := s.block.btsv.set b true hb }
      ret := some (.status .acceptedDropped) }

/-- Two accepted presses of one channel are at least a window apart, and between them a release was recorded (R128):
when an edge is accepted, either none was before or the window has passed, and the recorded level was RELEASED. -/
def Obligations.AcceptedPressesAreAWindowApart : Prop :=
  ∀ (c : Config) (n k : Nat) (lvl rs : Level) (now : Nat) (b b' : Block c.toShape) (st : Status) (hk : k < c.nBtn),
    perform c n (.btnEdge k lvl rs now) b = .ok (b', .status st) → st = .accepted ∨ st = .acceptedDropped →
    lvl = .pressed ∧ rs = .pressed ∧ b.blevel[k]'hk = .released ∧
    (b.btsv[k]'hk = true → c.debounce ≤ (clockOf c now - b.bts[k]'hk).toNat) ∧
    b'.blevel[k]'hk = .pressed ∧ b'.bts[k]'hk = clockOf c now ∧ b'.btsv[k]'hk = true

/-- BTN_EDGE never enqueues a release: whatever slot it changes holds a PRESS of its own channel at NOW (R127). -/
def Obligations.BtnEdgeQueuesPressesOnly : Prop :=
  ∀ (c : Config) (n k : Nat) (lvl rs : Level) (now : Nat) (b b' : Block c.toShape) (r : Result c.toShape),
    perform c n (.btnEdge k lvl rs now) b = .ok (b', r) → ∀ i, Memory.read b'.slot i ≠ Memory.read b.slot i →
    i = b.head ∧ Memory.read b'.slot i = some { ch := wrap c.chW k, kind := .press, ts := clockOf c now }

/-- RS is a don't care on every path that takes no re-sample (R91, R123). -/
def Obligations.ReSampleIsADontCareOffThePressPath : Prop :=
  ∀ (c : Config) (n k : Nat) (lvl rs rs' : Level) (now : Nat) (b : Block c.toShape) (hk : k < c.nBtn),
    lvl = .released ∨ b.blevel[k]'hk = .pressed ∨
      (b.btsv[k]'hk = true ∧ (clockOf c now - b.bts[k]'hk).toNat < c.debounce) →
    perform c n (.btnEdge k lvl rs now) b = perform c n (.btnEdge k lvl rs' now) b

/-! ### The event queue (42_event_queue) -/

/-- PUSH with room, as the producers see it: the record goes to the slot at HEAD, then HEAD advances; the attempt, the
success and the channel are recorded; every other slot reads as before (R140). -/
def Obligations.PushStoresAndPublishes : Prop :=
  ∀ (s : State) (ch : Nat) (kind : Kind) (ts : Nat), ch < 4 → s.block.head < 20 →
    (s.block.head + 1) % 20 ≠ s.block.tailP →
    ∃ m, exec (.push ch kind ts) s = .next { s with
        block := { s.block with
          slot := m
          head := (s.block.head + 1) % 20
          pushAtt := s.block.pushAtt + 1
          pushOk := s.block.pushOk + 1
          lastCh := BitVec.ofNat 2 ch }
        ret := some (.status .ok) } ∧
      ∀ i, Memory.read m i =
        if i = s.block.head then some { ch := BitVec.ofNat 2 ch, kind := kind, ts := BitVec.ofNat 32 ts }
        else Memory.read s.block.slot i

/-- PUSH into a queue that is full as the producers see it: FULL; only the diagnostics change (R140). -/
def Obligations.PushIntoAFullQueueDropsTheEvent : Prop :=
  ∀ (s : State) (ch : Nat) (kind : Kind) (ts : Nat), ch < 4 → (s.block.head + 1) % 20 = s.block.tailP →
    exec (.push ch kind ts) s = .next { s with
      block := { s.block with
        pushAtt := s.block.pushAtt + 1
        dropCnt := s.block.dropCnt + 1
        lastCh := BitVec.ofNat 2 ch }
      ret := some (.status .full) }

/-- POP.CHK in phase IDLE: the attempt is counted; EMPTY leaves the phase, PRESENT moves it to HAVE (R146). -/
def Obligations.PopChkCompletes : Prop :=
  ∀ s : State, s.block.popPhase = .idle →
    (s.block.headC = s.block.tail → exec .popChk s = .next { s with
      block := { s.block with popAtt := s.block.popAtt + 1 }
      ret := some (.status .empty) }) ∧
    (s.block.headC ≠ s.block.tail → exec .popChk s = .next { s with
      block := { s.block with popAtt := s.block.popAtt + 1, popPhase := .haveEvent }
      ret := some (.status .present) })

/-- POP.RD in phase HAVE over a written slot copies the whole record at TAIL; TAIL does not move (R147). -/
def Obligations.PopRdCompletes : Prop :=
  ∀ (s : State) (ev : Event Config.hw.toShape), s.block.popPhase = .haveEvent → s.block.tail < 20 →
    Memory.read s.block.slot s.block.tail = some ev →
    exec .popRd s = .next { s with
      block := { s.block with popLatch := some ev, popPhase := .copied }
      ret := some (.status .ok) }

/-- POP.PUB in phase COPIED advances TAIL, counts the success and returns the latch, which keeps its value (R148). -/
def Obligations.PopPubCompletes : Prop :=
  ∀ (s : State) (ev : Event Config.hw.toShape), s.block.popPhase = .copied → s.block.popLatch = some ev →
    exec .popPub s = .next { s with
      block := { s.block with
        tail := (s.block.tail + 1) % 20
        popOk := s.block.popOk + 1
        popPhase := .idle }
      ret := some (.event ev) }

/-- POP in phase IDLE: EMPTY, or the event at TAIL with TAIL advanced and both counters up (R149). -/
def Obligations.PopCompletes : Prop :=
  ∀ s : State, s.block.popPhase = .idle →
    (s.block.headC = s.block.tail → exec .pop s = .next { s with
      block := { s.block with popAtt := s.block.popAtt + 1 }
      ret := some (.status .empty) }) ∧
    (∀ ev, s.block.headC ≠ s.block.tail → s.block.tail < 20 → Memory.read s.block.slot s.block.tail = some ev →
      exec .pop s = .next { s with
        block := { s.block with
          popAtt := s.block.popAtt + 1
          popLatch := some ev
          tail := (s.block.tail + 1) % 20
          popOk := s.block.popOk + 1 }
        ret := some (.event ev) })

/-- POP is exactly POP.CHK and, if that returned PRESENT, POP.RD and POP.PUB (R149). -/
def Obligations.PopIsItsThreeSteps : Prop :=
  ∀ (c : Config) (n : Nat) (b b' : Block c.toShape),
    (perform c n .popChk b = .ok (b', .status .empty) → perform c n .pop b = .ok (b', .status .empty)) ∧
    (∀ ev, runOps c n [.popChk, .popRd, .popPub] b =
        .ok (b', [(.popChk, .status .present), (.popRd, .status .ok), (.popPub, .event ev)]) →
      perform c n .pop b = .ok (b', .event ev)) ∧
    (∀ ev, perform c n .pop b = .ok (b', .event ev) →
      runOps c n [.popChk, .popRd, .popPub] b =
        .ok (b', [(.popChk, .status .present), (.popRd, .status .ok), (.popPub, .event ev)]))

/-- SIZE in phase IDLE returns (HEAD_C - TAIL) mod 20 and writes nothing; under the invariant that is at most the true
occupancy (R150). -/
def Obligations.SizeCompletes : Prop :=
  ∀ s : State, s.block.popPhase = .idle →
    (∃ k, exec .size s = .next { s with ret := some (.occupancy k) } ∧
      k < 20 ∧ (k : Int) = ((s.block.headC : Int) - s.block.tail) % 20 ∧
      (s.Inv → (k : Int) ≤ ((s.block.head : Int) - s.block.tail) % 20))

/-- SYNC_H and SYNC_T copy one index each, in every phase, and write nothing else; in SAME_DOMAIN they change nothing
(R152, R153). -/
def Obligations.SyncStepsComplete : Prop :=
  (∀ s : State,
    exec .syncH s = .next { s with block := { s.block with headC := s.block.head }, ret := some (.status .ok) } ∧
    exec .syncT s = .next { s with block := { s.block with tailP := s.block.tail }, ret := some (.status .ok) }) ∧
  ∀ (c : Config) (n : Nat) (b : Block c.toShape), c.cdc = .sameDomain →
    perform c n .syncH b = .ok (b, .status .ok) ∧ perform c n .syncT b = .ok (b, .status .ok)

/-- FIFO over any run without RESET from any state that satisfies the invariant: what was in the queue followed by what
was pushed is what was popped followed by what is still in it. So every pop returns the oldest event not yet popped,
once, and no dropped event is ever returned (R61). -/
def Obligations.QueueIsFirstInFirstOut : Prop :=
  ∀ (c : Config), c.wf = true → ∀ (n : Nat) (ops : List Instr) (b b' : Block c.toShape) (t : Trace c.toShape),
    b.Inv c → Instr.reset ∉ ops → runOps c n ops b = .ok (b', t) →
    b.live c ++ Trace.pushed c t = Trace.popped t ++ b'.live c ∧
    (∀ ev ∈ b.live c, ev ≠ none) ∧ (b.live c).length ≤ c.qsize - 1

/-- The three occupancies: the consumer never sees more than there is, the producers never less, at most QSIZE - 1
events are in the queue, the tests for empty and full read the views as R141 says, and in SAME_DOMAIN the three are
equal (R46, R141). -/
def Obligations.OccupancyViewsAreOrdered : Prop :=
  ∀ (c : Config), c.wf = true → ∀ b : Block c.toShape, b.Inv c →
    b.occC c ≤ b.occ c ∧ b.occ c ≤ b.occP c ∧ b.occP c ≤ c.qsize - 1 ∧
    (b.isEmpty c = true ↔ b.occC c = 0) ∧ (b.isFull c = true ↔ b.occP c = c.qsize - 1) ∧
    (c.cdc = .sameDomain → b.occC c = b.occ c ∧ b.occP c = b.occ c)

/-- The three counter identities after every operation, from every block that satisfies the invariant, the occupancy
written out (R48): PUSH_ATT = PUSH_OK + DROP_CNT and PUSH_OK - POP_OK = HEAD - TAIL, modulo 2^DIAG_W and QSIZE; and
POP_OK <= POP_ATT, strictly while a pop is in flight, is kept by every operation that does not wrap POP_ATT. After
RESET all three hold. -/
def Obligations.CountersAgreeWithTheQueue : Prop :=
  (∀ (c : Config), c.wf = true → ∀ (n : Nat) (i : Instr) (b b' : Block c.toShape) (r : Result c.toShape),
    b.Inv c → perform c n i b = .ok (b', r) →
    b'.pushAtt.toNat = (b'.pushOk.toNat + b'.dropCnt.toNat) % 2 ^ c.diagW ∧
    (c.qsize - 1 < 2 ^ c.diagW →
      ((b'.pushOk.toNat : Int) - b'.popOk.toNat) % 2 ^ c.diagW = ((b'.head : Int) - b'.tail) % c.qsize) ∧
    (b.popsCounted → i = .reset ∨ b.popAtt.toNat ≤ b'.popAtt.toNat →
      b'.popsCounted ∧ b'.popOk.toNat ≤ b'.popAtt.toNat)) ∧
  ∀ σ : Shape, (Block.reset σ).popsCounted ∧
    (Block.reset σ).pushAtt.toNat = (Block.reset σ).pushOk.toNat + (Block.reset σ).dropCnt.toNat ∧
    (Block.reset σ).pushOk = (Block.reset σ).popOk ∧ (Block.reset σ).head = (Block.reset σ).tail

/-- An event the consumer is told of is really there, and a FULL is answered only when QSIZE - 1 slots are taken as the
producers see it (R65, R140, R146). -/
def Obligations.PresentAndFullAreNeverUnfounded : Prop :=
  ∀ (c : Config), c.wf = true → ∀ (n : Nat) (b b' : Block c.toShape), b.Inv c →
    (perform c n .popChk b = .ok (b', .status .present) →
      0 < b.occ c ∧ ∃ ev, Memory.read b.slot b.tail = some ev) ∧
    (∀ ch kind ts, perform c n (.push ch kind ts) b = .ok (b', .status .full) → b.occP c = c.qsize - 1)

/-- Nothing a producer or a synchroniser does disturbs a pop in flight: the record at TAIL, the phase, the latch and
TAIL stay (R59 b, R147). -/
def Obligations.PopInFlightIsUndisturbed : Prop :=
  ∀ (c : Config), c.wf = true → ∀ (n : Nat) (i : Instr) (b b' : Block c.toShape) (r : Result c.toShape), b.Inv c →
    b.popPhase ≠ .idle → contextOf i = some .int ∨ contextOf i = some .sync → perform c n i b = .ok (b', r) →
    Memory.read b'.slot b'.tail = Memory.read b.slot b.tail ∧ b'.tail = b.tail ∧ b'.popPhase = b.popPhase ∧
    b'.popLatch = b.popLatch

/-- N pushes that return OK into an empty queue, then a SYNC_H and N pops, give the same events in the same order
(R155). -/
def Obligations.PushedEventsArePoppedInOrder : Prop :=
  ∀ (c : Config), c.wf = true → ∀ (n : Nat) (evs : List (Fin c.nBtn × Kind × Nat)) (b b' : Block c.toShape)
    (t : Trace c.toShape), b.Inv c → b.popPhase = .idle → b.occ c = 0 →
    runOps c n (evs.map fun x => Instr.push x.1.val x.2.1 x.2.2) b = .ok (b', t) → (∀ p ∈ t, p.2 = .status .ok) →
    ∃ b'' t', runOps c (n + evs.length) (Instr.syncH :: List.replicate evs.length Instr.pop) b' = .ok (b'', t') ∧
      Trace.popped t' = evs.map fun x => some { ch := wrap c.chW x.1.val, kind := x.2.1, ts := clockOf c x.2.2 }

/-! ### The crossing (20_memory) -/

/-- A receiver that samples the wires while an index advances, bit by bit at will, reads the old code word or the new
one, the wrap included, for every legal QSIZE (R66). -/
def Obligations.GlimpsedWordIsOldOrNew : Prop :=
  ∀ (c : Config), c.wf = true → ∀ (i : Nat) (pick : BitVec c.idxW), i < c.qsize →
    glimpse pick (wireWord c i) (wireWord c (nextIndex c i)) = wireWord c i ∨
    glimpse pick (wireWord c i) (wireWord c (nextIndex c i)) = wireWord c (nextIndex c i)

/-- The receiving side turns every code word back into its index, so a register loaded over the wires is a SYNC step
(R66, R152, R153). -/
def Obligations.WiresCarryTheIndex : Prop :=
  ∀ (c : Config), c.wf = true →
    (∀ i, i < c.qsize → wireIndex c (wireWord c i) = some i) ∧
    (∀ b : Block c.toShape, c.cdc = .graySync → b.head < c.qsize → b.tail < c.qsize →
      (b.headReceived c (wireWord c b.head)).map (fun b' => (b', Result.status Status.ok)) = b.syncH c ∧
      (b.tailReceived c (wireWord c b.tail)).map (fun b' => (b', Result.status Status.ok)) = b.syncT c)

/-- Every operation in SAME_DOMAIN is the same operation in GRAY_SYNC followed by both SYNC steps: the same result, and
the same state once the copies are read as the indices they are (R67). -/
def Obligations.SameDomainIsGraySyncWithoutLag : Prop :=
  ∀ (c : Config) (n : Nat) (i : Instr) (b b' : Block c.toShape) (r : Result c.toShape),
    perform { c with cdc := .sameDomain } n i b = .ok (b', r) →
    ∃ b1 b2 : Block c.toShape,
      perform { c with cdc := .graySync } n i { b with headC := b.head, tailP := b.tail } = .ok (b1, r) ∧
      perform { c with cdc := .graySync } n .syncH b1 = .ok (b2, .status .ok) ∧
      perform { c with cdc := .graySync } n .syncT b2 =
        .ok ({ b' with headC := b'.head, tailP := b'.tail }, .status .ok)

/-! ### Dispatcher and system (43_dispatcher_and_system, 70_reset_and_hazards) -/

/-- DRAIN in phase IDLE returns every accumulator and the flag and clears them all; the histories and everything else
stay (R170). -/
def Obligations.DrainCompletes : Prop :=
  ∀ s : State, s.block.popPhase = .idle → ∃ t, exec .drain s = .next t ∧
    t.ret = some (.drained s.block.acc s.block.encActivity) ∧
    t = { s with block := { s.block with acc := t.block.acc, encActivity := false }, ret := t.ret } ∧
    ∀ e (he : e < 4), t.block.acc[e]'he = 0#32

/-- A drain that returns no activity returns all zeros (R170 d). -/
def Obligations.DrainWithoutActivityReturnsZeros : Prop :=
  ∀ (s t : State) (v : Vector (BitVec 32) 4), s.Inv → exec .drain s = .next t → t.ret = some (.drained v false) →
    v = Vector.replicate 4 0#32 ∧ t.block = s.block

/-- RDDIAG k in phase IDLE returns register k exactly, LAST_CH zero-extended, and writes nothing (R175). -/
def Obligations.RddiagCompletes : Prop :=
  ∀ s : State, s.block.popPhase = .idle →
    exec .rddiag0 s = .next { s with ret := some (.diag s.block.pushAtt) } ∧
    exec .rddiag1 s = .next { s with ret := some (.diag s.block.pushOk) } ∧
    exec .rddiag2 s = .next { s with ret := some (.diag s.block.popAtt) } ∧
    exec .rddiag3 s = .next { s with ret := some (.diag s.block.popOk) } ∧
    exec .rddiag4 s = .next { s with ret := some (.diag s.block.dropCnt) } ∧
    ∃ v : BitVec 32, exec .rddiag5 s = .next { s with ret := some (.diag v) } ∧ v.toNat = s.block.lastCh.toNat

/-- With DIAG_ATOMIC false the two consumer-side counters still read exactly, LAST_CH reads below 2^CH_W, and a read
writes nothing (R72). -/
def Obligations.RelaxedDiagnosticsReads : Prop :=
  ∀ (c : Config) (n : Nat) (b : Block c.toShape), c.diagAtomic = false → b.popPhase = .idle → c.chW ≤ c.diagW →
    perform c n .rddiag2 b = .ok (b, .diag b.popAtt) ∧ perform c n .rddiag3 b = .ok (b, .diag b.popOk) ∧
    (∃ v, perform c n .rddiag5 b = .ok (b, .diag v) ∧ v.toNat < 2 ^ c.chW) ∧
    (∃ v, perform c n .rddiag0 b = .ok (b, .diag v)) ∧ (∃ v, perform c n .rddiag1 b = .ok (b, .diag v)) ∧
    ∃ v, perform c n .rddiag4 b = .ok (b, .diag v)

/-- RESET in any phase puts every field of the record at its reset value and returns OK (R220). -/
def Obligations.ResetCompletes : Prop :=
  ∀ s : State, ∃ b, exec .reset s = .next { s with block := b, ret := some (.status .ok) } ∧
    (∀ e (he : e < 4), b.hist[e]'he = 0b0000#4 ∧ b.acc[e]'he = 0#32) ∧ b.encActivity = false ∧
    (∀ n (hn : n < 4), b.blevel[n]'hn = .released ∧ b.bts[n]'hn = 0#32 ∧ b.btsv[n]'hn = false) ∧
    (∀ i, Memory.read b.slot i = none) ∧ b.head = 0 ∧ b.tail = 0 ∧ b.headC = 0 ∧ b.tailP = 0 ∧
    b.popPhase = .idle ∧ b.popLatch = none ∧ b.pushAtt = 0#32 ∧ b.pushOk = 0#32 ∧ b.dropCnt = 0#32 ∧
    b.lastCh = 0#2 ∧ b.popAtt = 0#32 ∧ b.popOk = 0#32
end

