-- ==== Sys2Proof/Laws/Config.lean ====
section
/-! SUPPORT. What the check of a configuration says, part by part (00_scope R10). -/

namespace Sys2Proof

/-- The constraints of R10 as named facts. -/
structure Config.Legal (c : Config) : Prop where
  nEnc_pos : 1 ≤ c.nEnc
  nBtn_pos : 1 ≤ c.nBtn
  nEnc_le : c.nEnc ≤ 2 ^ c.chW
  nBtn_le : c.nBtn ≤ 2 ^ c.chW
  qsize_two_le : 2 ≤ c.qsize
  qsize_even : c.qsize % 2 = 0
  idxW_eq : c.idxW = ceilLog2 c.qsize
  gOff_eq : c.gOff = (2 ^ c.idxW - c.qsize) / 2
  table : ttWF c.tt = true
  debounce_pos : 1 ≤ c.debounce
  debounce_lt : c.debounce < 2 ^ (c.tsW - 1)
  accW_two_le : 2 ≤ c.accW
  tsW_pos : 1 ≤ c.tsW
  diagW_pos : 1 ≤ c.diagW
  eventW_eq : c.eventW = c.chW + 1 + c.tsW
  pol_length : c.pol.length = c.nEnc

/-- A configuration that passes the check satisfies each constraint. -/
theorem Config.legal_of_wf {c : Config} (h : c.wf = true) : c.Legal := by
  simp only [Config.wf, Bool.and_eq_true, decide_eq_true_eq] at h
  obtain ⟨⟨⟨⟨⟨⟨⟨⟨⟨⟨⟨⟨⟨⟨⟨h1, h2⟩, h3⟩, h4⟩, h5⟩, h6⟩, h7⟩, h8⟩, h9⟩, h10⟩, h11⟩, h12⟩, h13⟩, h14⟩, h15⟩, h16⟩ := h
  exact ⟨h1, h2, h3, h4, h5, h6, h7, h8, h9, h10, h11, h12, h13, h14, h15, h16⟩

end Sys2Proof
end

