-- ==== Sys2Proof/Laws/Memory.lean ====
section
/-! SUPPORT. The slot memory: a read after a write, and the canonical form kept by every memory operation. -/

namespace Sys2Proof.Machine

variable {σ : Shape}

@[simp] theorem Memory.read_nil (i : Nat) : Memory.read ([] : Memory σ) i = none := rfl

/-- Reading any slot after a write: the record at the written index, what was there elsewhere. -/
theorem Memory.read_write (m : Memory σ) (i j : Nat) (ev : Event σ) :
    Memory.read (Memory.write m i ev) j = if j = i then some ev else Memory.read m j := by
  induction m with
  | nil => simp [Memory.write, Memory.read]
  | cons p rest ih =>
    obtain ⟨k, e⟩ := p
    unfold Memory.write
    split
    · simp [Memory.read]
    · split
      · next h => subst h; by_cases hj : j = i <;> simp [Memory.read, hj]
      · next h =>
        simp only [Memory.read, ih]
        by_cases hj : j = k
        · have : j ≠ i := by omega
          simp [hj]; omega
        · simp [hj]

@[simp] theorem Memory.read_write_same (m : Memory σ) (i : Nat) (ev : Event σ) :
    Memory.read (Memory.write m i ev) i = some ev := by simp [Memory.read_write]

theorem Memory.read_write_other (m : Memory σ) {i j : Nat} (ev : Event σ) (h : j ≠ i) :
    Memory.read (Memory.write m i ev) j = Memory.read m j := by simp [Memory.read_write, h]

/-- A write below the bound keeps the canonical form from any lower bound. -/
theorem Memory.wfFrom_write {q : Nat} {i : Nat} (ev : Event σ) (hi : i < q) :
    ∀ (m : Memory σ) (lo : Nat), lo ≤ i → Memory.wfFrom q lo m = true → Memory.wfFrom q lo (Memory.write m i ev) = true
  | [], lo, hlo, _ => by simp [Memory.write, Memory.wfFrom, hlo, hi]
  | (k, e) :: rest, lo, hlo, h => by
    simp only [Memory.wfFrom, Bool.and_eq_true, decide_eq_true_eq] at h
    unfold Memory.write
    split
    · simp only [Memory.wfFrom, Bool.and_eq_true, decide_eq_true_eq]
      exact ⟨⟨hlo, hi⟩, ⟨by omega, h.1.2⟩, h.2⟩
    · split
      · next hk => subst hk; simp only [Memory.wfFrom, Bool.and_eq_true, decide_eq_true_eq]; exact ⟨⟨hlo, hi⟩, h.2⟩
      · simp only [Memory.wfFrom, Bool.and_eq_true, decide_eq_true_eq]
        exact ⟨h.1, Memory.wfFrom_write ev hi rest (k + 1) (by omega) h.2⟩

/-- A write inside the address space keeps the canonical form. -/
theorem Memory.wf_write {q : Nat} {m : Memory σ} {i : Nat} (ev : Event σ) (hi : i < q) (h : Memory.wf q m = true) :
    Memory.wf q (Memory.write m i ev) = true := Memory.wfFrom_write ev hi m 0 (Nat.zero_le i) h

/-- The memory after reset has the canonical form. -/
theorem Memory.wf_reset (q : Nat) : Memory.wf q (Block.reset σ).slot = true := rfl

/-- An index that is not in a canonical list from `lo` on is unwritten. -/
theorem Memory.read_below {q : Nat} : ∀ (m : Memory σ) (lo i : Nat), Memory.wfFrom q lo m = true → i < lo → Memory.read m i = none
  | [], _, _, _, _ => rfl
  | (k, e) :: rest, lo, i, h, hi => by
    simp only [Memory.wfFrom, Bool.and_eq_true, decide_eq_true_eq] at h
    have : i ≠ k := by omega
    simp only [Memory.read, this, if_false]
    exact Memory.read_below rest (k + 1) i h.2 (by omega)

/-- Canonical memories that read the same everywhere are the same list. -/
theorem Memory.ext_of_wfFrom {q : Nat} : ∀ (m m' : Memory σ) (lo : Nat), Memory.wfFrom q lo m = true →
    Memory.wfFrom q lo m' = true → (∀ i, Memory.read m i = Memory.read m' i) → m = m'
  | [], [], _, _, _, _ => rfl
  | [], (k, e) :: rest, _, _, _, h => by have := h k; simp [Memory.read] at this
  | (k, e) :: rest, [], _, _, _, h => by have := h k; simp [Memory.read] at this
  | (k, e) :: rest, (k', e') :: rest', lo, h1, h2, h => by
    simp only [Memory.wfFrom, Bool.and_eq_true, decide_eq_true_eq] at h1 h2
    have hk : k = k' := by
      rcases Nat.lt_trichotomy k k' with hlt | heq | hgt
      · have := h k
        simp only [Memory.read, if_true, Nat.ne_of_lt hlt, if_false] at this
        rw [Memory.read_below rest' (k' + 1) k h2.2 (by omega)] at this
        cases this
      · exact heq
      · have := h k'
        simp only [Memory.read, if_true, Nat.ne_of_lt hgt, if_false] at this
        rw [Memory.read_below rest (k + 1) k' h1.2 (by omega)] at this
        cases this
    subst hk
    have he : e = e' := by have := h k; simpa [Memory.read] using this
    subst he
    have hr : rest = rest' := Memory.ext_of_wfFrom rest rest' (k + 1) h1.2 h2.2 fun i => by
      by_cases hi : i = k
      · subst hi; rw [Memory.read_below rest _ _ h1.2 (by omega), Memory.read_below rest' _ _ h2.2 (by omega)]
      · have := h i; simpa [Memory.read, hi] using this
    rw [hr]

/-- Equal contents are equal data: the canonical form is one form. -/
theorem Memory.ext {q : Nat} {m m' : Memory σ} (h1 : Memory.wf q m = true) (h2 : Memory.wf q m' = true)
    (h : ∀ i, Memory.read m i = Memory.read m' i) : m = m' := Memory.ext_of_wfFrom m m' 0 h1 h2 h

/-- Everything a slot read can answer (R51). -/
theorem memRead_ok {c : Config} {m : Memory c.toShape} {i : Nat} {ev : Event c.toShape} :
    memRead c m i = .ok ev ↔ i < c.qsize ∧ Memory.read m i = some ev := by
  unfold memRead
  split
  · next h => split <;> simp_all
  · next h => simp [h]

/-- Everything a slot write can answer (R51). -/
theorem memWrite_ok {c : Config} {m m' : Memory c.toShape} {i : Nat} {ev : Event c.toShape} :
    memWrite c m i ev = .ok m' ↔ i < c.qsize ∧ m' = Memory.write m i ev := by
  unfold memWrite
  split
  · next h => simp [h, eq_comm]
  · next h => simp [h]

end Sys2Proof.Machine
end

