-- ==== Sys2Proof/Laws/State.lean ====
section
/-! SUPPORT. What each named update of the block and of the machine does to each field, one lemma a field, and what it
leaves of each side's view of the other side's index. -/

namespace Sys2Proof.Machine

variable (c : Config) (b : Block c.toShape)

/-! ### decoded -/

@[simp] theorem Block.decoded_hist (e : Fin c.nEnc) (h : History) (d : Int) :
    (b.decoded c e h d).hist = b.hist.set e h := rfl
@[simp] theorem Block.decoded_acc (e : Fin c.nEnc) (h : History) (d : Int) :
    (b.decoded c e h d).acc = if d = 0 then b.acc else b.acc.set e (satAdd b.acc[e] d) := rfl
@[simp] theorem Block.decoded_encActivity (e : Fin c.nEnc) (h : History) (d : Int) :
    (b.decoded c e h d).encActivity = activityAfter b.encActivity d := rfl
@[simp] theorem Block.decoded_blevel (e : Fin c.nEnc) (h : History) (d : Int) :
    (b.decoded c e h d).blevel = b.blevel := rfl
@[simp] theorem Block.decoded_bts (e : Fin c.nEnc) (h : History) (d : Int) :
    (b.decoded c e h d).bts = b.bts := rfl
@[simp] theorem Block.decoded_btsv (e : Fin c.nEnc) (h : History) (d : Int) :
    (b.decoded c e h d).btsv = b.btsv := rfl
@[simp] theorem Block.decoded_slot (e : Fin c.nEnc) (h : History) (d : Int) :
    (b.decoded c e h d).slot = b.slot := rfl
@[simp] theorem Block.decoded_head (e : Fin c.nEnc) (h : History) (d : Int) :
    (b.decoded c e h d).head = b.head := rfl
@[simp] theorem Block.decoded_tail (e : Fin c.nEnc) (h : History) (d : Int) :
    (b.decoded c e h d).tail = b.tail := rfl
@[simp] theorem Block.decoded_headC (e : Fin c.nEnc) (h : History) (d : Int) :
    (b.decoded c e h d).headC = b.headC := rfl
@[simp] theorem Block.decoded_tailP (e : Fin c.nEnc) (h : History) (d : Int) :
    (b.decoded c e h d).tailP = b.tailP := rfl
@[simp] theorem Block.decoded_popPhase (e : Fin c.nEnc) (h : History) (d : Int) :
    (b.decoded c e h d).popPhase = b.popPhase := rfl
@[simp] theorem Block.decoded_popLatch (e : Fin c.nEnc) (h : History) (d : Int) :
    (b.decoded c e h d).popLatch = b.popLatch := rfl
@[simp] theorem Block.decoded_pushAtt (e : Fin c.nEnc) (h : History) (d : Int) :
    (b.decoded c e h d).pushAtt = b.pushAtt := rfl
@[simp] theorem Block.decoded_pushOk (e : Fin c.nEnc) (h : History) (d : Int) :
    (b.decoded c e h d).pushOk = b.pushOk := rfl
@[simp] theorem Block.decoded_dropCnt (e : Fin c.nEnc) (h : History) (d : Int) :
    (b.decoded c e h d).dropCnt = b.dropCnt := rfl
@[simp] theorem Block.decoded_lastCh (e : Fin c.nEnc) (h : History) (d : Int) :
    (b.decoded c e h d).lastCh = b.lastCh := rfl
@[simp] theorem Block.decoded_popAtt (e : Fin c.nEnc) (h : History) (d : Int) :
    (b.decoded c e h d).popAtt = b.popAtt := rfl
@[simp] theorem Block.decoded_popOk (e : Fin c.nEnc) (h : History) (d : Int) :
    (b.decoded c e h d).popOk = b.popOk := rfl
@[simp] theorem Block.decoded_headSeen (e : Fin c.nEnc) (h : History) (d : Int) : (b.decoded c e h d).headSeen c = b.headSeen c := rfl
@[simp] theorem Block.decoded_tailSeen (e : Fin c.nEnc) (h : History) (d : Int) : (b.decoded c e h d).tailSeen c = b.tailSeen c := rfl
@[simp] theorem Block.decoded_occ (e : Fin c.nEnc) (h : History) (d : Int) : (b.decoded c e h d).occ c = b.occ c := rfl
@[simp] theorem Block.decoded_occC (e : Fin c.nEnc) (h : History) (d : Int) : (b.decoded c e h d).occC c = b.occC c := rfl
@[simp] theorem Block.decoded_occP (e : Fin c.nEnc) (h : History) (d : Int) : (b.decoded c e h d).occP c = b.occP c := rfl
@[simp] theorem Block.decoded_isEmpty (e : Fin c.nEnc) (h : History) (d : Int) : (b.decoded c e h d).isEmpty c = b.isEmpty c := rfl
@[simp] theorem Block.decoded_isFull (e : Fin c.nEnc) (h : History) (d : Int) : (b.decoded c e h d).isFull c = b.isFull c := rfl

/-! ### cleared -/

@[simp] theorem Block.cleared_hist :
    (b.cleared c).hist = b.hist := rfl
@[simp] theorem Block.cleared_acc :
    (b.cleared c).acc = Vector.replicate c.nEnc 0#c.accW := rfl
@[simp] theorem Block.cleared_encActivity :
    (b.cleared c).encActivity = false := rfl
@[simp] theorem Block.cleared_blevel :
    (b.cleared c).blevel = b.blevel := rfl
@[simp] theorem Block.cleared_bts :
    (b.cleared c).bts = b.bts := rfl
@[simp] theorem Block.cleared_btsv :
    (b.cleared c).btsv = b.btsv := rfl
@[simp] theorem Block.cleared_slot :
    (b.cleared c).slot = b.slot := rfl
@[simp] theorem Block.cleared_head :
    (b.cleared c).head = b.head := rfl
@[simp] theorem Block.cleared_tail :
    (b.cleared c).tail = b.tail := rfl
@[simp] theorem Block.cleared_headC :
    (b.cleared c).headC = b.headC := rfl
@[simp] theorem Block.cleared_tailP :
    (b.cleared c).tailP = b.tailP := rfl
@[simp] theorem Block.cleared_popPhase :
    (b.cleared c).popPhase = b.popPhase := rfl
@[simp] theorem Block.cleared_popLatch :
    (b.cleared c).popLatch = b.popLatch := rfl
@[simp] theorem Block.cleared_pushAtt :
    (b.cleared c).pushAtt = b.pushAtt := rfl
@[simp] theorem Block.cleared_pushOk :
    (b.cleared c).pushOk = b.pushOk := rfl
@[simp] theorem Block.cleared_dropCnt :
    (b.cleared c).dropCnt = b.dropCnt := rfl
@[simp] theorem Block.cleared_lastCh :
    (b.cleared c).lastCh = b.lastCh := rfl
@[simp] theorem Block.cleared_popAtt :
    (b.cleared c).popAtt = b.popAtt := rfl
@[simp] theorem Block.cleared_popOk :
    (b.cleared c).popOk = b.popOk := rfl
@[simp] theorem Block.cleared_headSeen : (b.cleared c).headSeen c = b.headSeen c := rfl
@[simp] theorem Block.cleared_tailSeen : (b.cleared c).tailSeen c = b.tailSeen c := rfl
@[simp] theorem Block.cleared_occ : (b.cleared c).occ c = b.occ c := rfl
@[simp] theorem Block.cleared_occC : (b.cleared c).occC c = b.occC c := rfl
@[simp] theorem Block.cleared_occP : (b.cleared c).occP c = b.occP c := rfl
@[simp] theorem Block.cleared_isEmpty : (b.cleared c).isEmpty c = b.isEmpty c := rfl
@[simp] theorem Block.cleared_isFull : (b.cleared c).isFull c = b.isFull c := rfl

/-! ### pressedAt -/

@[simp] theorem Block.pressedAt_hist (n : Fin c.nBtn) (now : BitVec c.tsW) :
    (b.pressedAt c n now).hist = b.hist := rfl
@[simp] theorem Block.pressedAt_acc (n : Fin c.nBtn) (now : BitVec c.tsW) :
    (b.pressedAt c n now).acc = b.acc := rfl
@[simp] theorem Block.pressedAt_encActivity (n : Fin c.nBtn) (now : BitVec c.tsW) :
    (b.pressedAt c n now).encActivity = b.encActivity := rfl
@[simp] theorem Block.pressedAt_blevel (n : Fin c.nBtn) (now : BitVec c.tsW) :
    (b.pressedAt c n now).blevel = b.blevel.set n .pressed := rfl
@[simp] theorem Block.pressedAt_bts (n : Fin c.nBtn) (now : BitVec c.tsW) :
    (b.pressedAt c n now).bts = b.bts.set n now := rfl
@[simp] theorem Block.pressedAt_btsv (n : Fin c.nBtn) (now : BitVec c.tsW) :
    (b.pressedAt c n now).btsv = b.btsv.set n true := rfl
@[simp] theorem Block.pressedAt_slot (n : Fin c.nBtn) (now : BitVec c.tsW) :
    (b.pressedAt c n now).slot = b.slot := rfl
@[simp] theorem Block.pressedAt_head (n : Fin c.nBtn) (now : BitVec c.tsW) :
    (b.pressedAt c n now).head = b.head := rfl
@[simp] theorem Block.pressedAt_tail (n : Fin c.nBtn) (now : BitVec c.tsW) :
    (b.pressedAt c n now).tail = b.tail := rfl
@[simp] theorem Block.pressedAt_headC (n : Fin c.nBtn) (now : BitVec c.tsW) :
    (b.pressedAt c n now).headC = b.headC := rfl
@[simp] theorem Block.pressedAt_tailP (n : Fin c.nBtn) (now : BitVec c.tsW) :
    (b.pressedAt c n now).tailP = b.tailP := rfl
@[simp] theorem Block.pressedAt_popPhase (n : Fin c.nBtn) (now : BitVec c.tsW) :
    (b.pressedAt c n now).popPhase = b.popPhase := rfl
@[simp] theorem Block.pressedAt_popLatch (n : Fin c.nBtn) (now : BitVec c.tsW) :
    (b.pressedAt c n now).popLatch = b.popLatch := rfl
@[simp] theorem Block.pressedAt_pushAtt (n : Fin c.nBtn) (now : BitVec c.tsW) :
    (b.pressedAt c n now).pushAtt = b.pushAtt := rfl
@[simp] theorem Block.pressedAt_pushOk (n : Fin c.nBtn) (now : BitVec c.tsW) :
    (b.pressedAt c n now).pushOk = b.pushOk := rfl
@[simp] theorem Block.pressedAt_dropCnt (n : Fin c.nBtn) (now : BitVec c.tsW) :
    (b.pressedAt c n now).dropCnt = b.dropCnt := rfl
@[simp] theorem Block.pressedAt_lastCh (n : Fin c.nBtn) (now : BitVec c.tsW) :
    (b.pressedAt c n now).lastCh = b.lastCh := rfl
@[simp] theorem Block.pressedAt_popAtt (n : Fin c.nBtn) (now : BitVec c.tsW) :
    (b.pressedAt c n now).popAtt = b.popAtt := rfl
@[simp] theorem Block.pressedAt_popOk (n : Fin c.nBtn) (now : BitVec c.tsW) :
    (b.pressedAt c n now).popOk = b.popOk := rfl
@[simp] theorem Block.pressedAt_headSeen (n : Fin c.nBtn) (now : BitVec c.tsW) : (b.pressedAt c n now).headSeen c = b.headSeen c := rfl
@[simp] theorem Block.pressedAt_tailSeen (n : Fin c.nBtn) (now : BitVec c.tsW) : (b.pressedAt c n now).tailSeen c = b.tailSeen c := rfl
@[simp] theorem Block.pressedAt_occ (n : Fin c.nBtn) (now : BitVec c.tsW) : (b.pressedAt c n now).occ c = b.occ c := rfl
@[simp] theorem Block.pressedAt_occC (n : Fin c.nBtn) (now : BitVec c.tsW) : (b.pressedAt c n now).occC c = b.occC c := rfl
@[simp] theorem Block.pressedAt_occP (n : Fin c.nBtn) (now : BitVec c.tsW) : (b.pressedAt c n now).occP c = b.occP c := rfl
@[simp] theorem Block.pressedAt_isEmpty (n : Fin c.nBtn) (now : BitVec c.tsW) : (b.pressedAt c n now).isEmpty c = b.isEmpty c := rfl
@[simp] theorem Block.pressedAt_isFull (n : Fin c.nBtn) (now : BitVec c.tsW) : (b.pressedAt c n now).isFull c = b.isFull c := rfl

/-! ### releasedAt -/

@[simp] theorem Block.releasedAt_hist (n : Fin c.nBtn) :
    (b.releasedAt c n).hist = b.hist := rfl
@[simp] theorem Block.releasedAt_acc (n : Fin c.nBtn) :
    (b.releasedAt c n).acc = b.acc := rfl
@[simp] theorem Block.releasedAt_encActivity (n : Fin c.nBtn) :
    (b.releasedAt c n).encActivity = b.encActivity := rfl
@[simp] theorem Block.releasedAt_blevel (n : Fin c.nBtn) :
    (b.releasedAt c n).blevel = b.blevel.set n .released := rfl
@[simp] theorem Block.releasedAt_bts (n : Fin c.nBtn) :
    (b.releasedAt c n).bts = b.bts := rfl
@[simp] theorem Block.releasedAt_btsv (n : Fin c.nBtn) :
    (b.releasedAt c n).btsv = b.btsv := rfl
@[simp] theorem Block.releasedAt_slot (n : Fin c.nBtn) :
    (b.releasedAt c n).slot = b.slot := rfl
@[simp] theorem Block.releasedAt_head (n : Fin c.nBtn) :
    (b.releasedAt c n).head = b.head := rfl
@[simp] theorem Block.releasedAt_tail (n : Fin c.nBtn) :
    (b.releasedAt c n).tail = b.tail := rfl
@[simp] theorem Block.releasedAt_headC (n : Fin c.nBtn) :
    (b.releasedAt c n).headC = b.headC := rfl
@[simp] theorem Block.releasedAt_tailP (n : Fin c.nBtn) :
    (b.releasedAt c n).tailP = b.tailP := rfl
@[simp] theorem Block.releasedAt_popPhase (n : Fin c.nBtn) :
    (b.releasedAt c n).popPhase = b.popPhase := rfl
@[simp] theorem Block.releasedAt_popLatch (n : Fin c.nBtn) :
    (b.releasedAt c n).popLatch = b.popLatch := rfl
@[simp] theorem Block.releasedAt_pushAtt (n : Fin c.nBtn) :
    (b.releasedAt c n).pushAtt = b.pushAtt := rfl
@[simp] theorem Block.releasedAt_pushOk (n : Fin c.nBtn) :
    (b.releasedAt c n).pushOk = b.pushOk := rfl
@[simp] theorem Block.releasedAt_dropCnt (n : Fin c.nBtn) :
    (b.releasedAt c n).dropCnt = b.dropCnt := rfl
@[simp] theorem Block.releasedAt_lastCh (n : Fin c.nBtn) :
    (b.releasedAt c n).lastCh = b.lastCh := rfl
@[simp] theorem Block.releasedAt_popAtt (n : Fin c.nBtn) :
    (b.releasedAt c n).popAtt = b.popAtt := rfl
@[simp] theorem Block.releasedAt_popOk (n : Fin c.nBtn) :
    (b.releasedAt c n).popOk = b.popOk := rfl
@[simp] theorem Block.releasedAt_headSeen (n : Fin c.nBtn) : (b.releasedAt c n).headSeen c = b.headSeen c := rfl
@[simp] theorem Block.releasedAt_tailSeen (n : Fin c.nBtn) : (b.releasedAt c n).tailSeen c = b.tailSeen c := rfl
@[simp] theorem Block.releasedAt_occ (n : Fin c.nBtn) : (b.releasedAt c n).occ c = b.occ c := rfl
@[simp] theorem Block.releasedAt_occC (n : Fin c.nBtn) : (b.releasedAt c n).occC c = b.occC c := rfl
@[simp] theorem Block.releasedAt_occP (n : Fin c.nBtn) : (b.releasedAt c n).occP c = b.occP c := rfl
@[simp] theorem Block.releasedAt_isEmpty (n : Fin c.nBtn) : (b.releasedAt c n).isEmpty c = b.isEmpty c := rfl
@[simp] theorem Block.releasedAt_isFull (n : Fin c.nBtn) : (b.releasedAt c n).isFull c = b.isFull c := rfl

/-! ### attempted -/

@[simp] theorem Block.attempted_hist (ch : BitVec c.chW) :
    (b.attempted c ch).hist = b.hist := rfl
@[simp] theorem Block.attempted_acc (ch : BitVec c.chW) :
    (b.attempted c ch).acc = b.acc := rfl
@[simp] theorem Block.attempted_encActivity (ch : BitVec c.chW) :
    (b.attempted c ch).encActivity = b.encActivity := rfl
@[simp] theorem Block.attempted_blevel (ch : BitVec c.chW) :
    (b.attempted c ch).blevel = b.blevel := rfl
@[simp] theorem Block.attempted_bts (ch : BitVec c.chW) :
    (b.attempted c ch).bts = b.bts := rfl
@[simp] theorem Block.attempted_btsv (ch : BitVec c.chW) :
    (b.attempted c ch).btsv = b.btsv := rfl
@[simp] theorem Block.attempted_slot (ch : BitVec c.chW) :
    (b.attempted c ch).slot = b.slot := rfl
@[simp] theorem Block.attempted_head (ch : BitVec c.chW) :
    (b.attempted c ch).head = b.head := rfl
@[simp] theorem Block.attempted_tail (ch : BitVec c.chW) :
    (b.attempted c ch).tail = b.tail := rfl
@[simp] theorem Block.attempted_headC (ch : BitVec c.chW) :
    (b.attempted c ch).headC = b.headC := rfl
@[simp] theorem Block.attempted_tailP (ch : BitVec c.chW) :
    (b.attempted c ch).tailP = b.tailP := rfl
@[simp] theorem Block.attempted_popPhase (ch : BitVec c.chW) :
    (b.attempted c ch).popPhase = b.popPhase := rfl
@[simp] theorem Block.attempted_popLatch (ch : BitVec c.chW) :
    (b.attempted c ch).popLatch = b.popLatch := rfl
@[simp] theorem Block.attempted_pushAtt (ch : BitVec c.chW) :
    (b.attempted c ch).pushAtt = b.pushAtt + 1 := rfl
@[simp] theorem Block.attempted_pushOk (ch : BitVec c.chW) :
    (b.attempted c ch).pushOk = b.pushOk := rfl
@[simp] theorem Block.attempted_dropCnt (ch : BitVec c.chW) :
    (b.attempted c ch).dropCnt = b.dropCnt := rfl
@[simp] theorem Block.attempted_lastCh (ch : BitVec c.chW) :
    (b.attempted c ch).lastCh = ch := rfl
@[simp] theorem Block.attempted_popAtt (ch : BitVec c.chW) :
    (b.attempted c ch).popAtt = b.popAtt := rfl
@[simp] theorem Block.attempted_popOk (ch : BitVec c.chW) :
    (b.attempted c ch).popOk = b.popOk := rfl
@[simp] theorem Block.attempted_headSeen (ch : BitVec c.chW) : (b.attempted c ch).headSeen c = b.headSeen c := rfl
@[simp] theorem Block.attempted_tailSeen (ch : BitVec c.chW) : (b.attempted c ch).tailSeen c = b.tailSeen c := rfl
@[simp] theorem Block.attempted_occ (ch : BitVec c.chW) : (b.attempted c ch).occ c = b.occ c := rfl
@[simp] theorem Block.attempted_occC (ch : BitVec c.chW) : (b.attempted c ch).occC c = b.occC c := rfl
@[simp] theorem Block.attempted_occP (ch : BitVec c.chW) : (b.attempted c ch).occP c = b.occP c := rfl
@[simp] theorem Block.attempted_isEmpty (ch : BitVec c.chW) : (b.attempted c ch).isEmpty c = b.isEmpty c := rfl
@[simp] theorem Block.attempted_isFull (ch : BitVec c.chW) : (b.attempted c ch).isFull c = b.isFull c := rfl

/-! ### dropped -/

@[simp] theorem Block.dropped_hist :
    (b.dropped c).hist = b.hist := rfl
@[simp] theorem Block.dropped_acc :
    (b.dropped c).acc = b.acc := rfl
@[simp] theorem Block.dropped_encActivity :
    (b.dropped c).encActivity = b.encActivity := rfl
@[simp] theorem Block.dropped_blevel :
    (b.dropped c).blevel = b.blevel := rfl
@[simp] theorem Block.dropped_bts :
    (b.dropped c).bts = b.bts := rfl
@[simp] theorem Block.dropped_btsv :
    (b.dropped c).btsv = b.btsv := rfl
@[simp] theorem Block.dropped_slot :
    (b.dropped c).slot = b.slot := rfl
@[simp] theorem Block.dropped_head :
    (b.dropped c).head = b.head := rfl
@[simp] theorem Block.dropped_tail :
    (b.dropped c).tail = b.tail := rfl
@[simp] theorem Block.dropped_headC :
    (b.dropped c).headC = b.headC := rfl
@[simp] theorem Block.dropped_tailP :
    (b.dropped c).tailP = b.tailP := rfl
@[simp] theorem Block.dropped_popPhase :
    (b.dropped c).popPhase = b.popPhase := rfl
@[simp] theorem Block.dropped_popLatch :
    (b.dropped c).popLatch = b.popLatch := rfl
@[simp] theorem Block.dropped_pushAtt :
    (b.dropped c).pushAtt = b.pushAtt := rfl
@[simp] theorem Block.dropped_pushOk :
    (b.dropped c).pushOk = b.pushOk := rfl
@[simp] theorem Block.dropped_dropCnt :
    (b.dropped c).dropCnt = b.dropCnt + 1 := rfl
@[simp] theorem Block.dropped_lastCh :
    (b.dropped c).lastCh = b.lastCh := rfl
@[simp] theorem Block.dropped_popAtt :
    (b.dropped c).popAtt = b.popAtt := rfl
@[simp] theorem Block.dropped_popOk :
    (b.dropped c).popOk = b.popOk := rfl
@[simp] theorem Block.dropped_headSeen : (b.dropped c).headSeen c = b.headSeen c := rfl
@[simp] theorem Block.dropped_tailSeen : (b.dropped c).tailSeen c = b.tailSeen c := rfl
@[simp] theorem Block.dropped_occ : (b.dropped c).occ c = b.occ c := rfl
@[simp] theorem Block.dropped_occC : (b.dropped c).occC c = b.occC c := rfl
@[simp] theorem Block.dropped_occP : (b.dropped c).occP c = b.occP c := rfl
@[simp] theorem Block.dropped_isEmpty : (b.dropped c).isEmpty c = b.isEmpty c := rfl
@[simp] theorem Block.dropped_isFull : (b.dropped c).isFull c = b.isFull c := rfl

/-! ### published -/

@[simp] theorem Block.published_hist (m : Memory c.toShape) :
    (b.published c m).hist = b.hist := rfl
@[simp] theorem Block.published_acc (m : Memory c.toShape) :
    (b.published c m).acc = b.acc := rfl
@[simp] theorem Block.published_encActivity (m : Memory c.toShape) :
    (b.published c m).encActivity = b.encActivity := rfl
@[simp] theorem Block.published_blevel (m : Memory c.toShape) :
    (b.published c m).blevel = b.blevel := rfl
@[simp] theorem Block.published_bts (m : Memory c.toShape) :
    (b.published c m).bts = b.bts := rfl
@[simp] theorem Block.published_btsv (m : Memory c.toShape) :
    (b.published c m).btsv = b.btsv := rfl
@[simp] theorem Block.published_slot (m : Memory c.toShape) :
    (b.published c m).slot = m := rfl
@[simp] theorem Block.published_head (m : Memory c.toShape) :
    (b.published c m).head = nextIndex c b.head := rfl
@[simp] theorem Block.published_tail (m : Memory c.toShape) :
    (b.published c m).tail = b.tail := rfl
@[simp] theorem Block.published_headC (m : Memory c.toShape) :
    (b.published c m).headC = b.headC := rfl
@[simp] theorem Block.published_tailP (m : Memory c.toShape) :
    (b.published c m).tailP = b.tailP := rfl
@[simp] theorem Block.published_popPhase (m : Memory c.toShape) :
    (b.published c m).popPhase = b.popPhase := rfl
@[simp] theorem Block.published_popLatch (m : Memory c.toShape) :
    (b.published c m).popLatch = b.popLatch := rfl
@[simp] theorem Block.published_pushAtt (m : Memory c.toShape) :
    (b.published c m).pushAtt = b.pushAtt := rfl
@[simp] theorem Block.published_pushOk (m : Memory c.toShape) :
    (b.published c m).pushOk = b.pushOk + 1 := rfl
@[simp] theorem Block.published_dropCnt (m : Memory c.toShape) :
    (b.published c m).dropCnt = b.dropCnt := rfl
@[simp] theorem Block.published_lastCh (m : Memory c.toShape) :
    (b.published c m).lastCh = b.lastCh := rfl
@[simp] theorem Block.published_popAtt (m : Memory c.toShape) :
    (b.published c m).popAtt = b.popAtt := rfl
@[simp] theorem Block.published_popOk (m : Memory c.toShape) :
    (b.published c m).popOk = b.popOk := rfl
@[simp] theorem Block.published_tailSeen (m : Memory c.toShape) : (b.published c m).tailSeen c = b.tailSeen c := rfl

/-! ### popTried -/

@[simp] theorem Block.popTried_hist :
    (b.popTried c).hist = b.hist := rfl
@[simp] theorem Block.popTried_acc :
    (b.popTried c).acc = b.acc := rfl
@[simp] theorem Block.popTried_encActivity :
    (b.popTried c).encActivity = b.encActivity := rfl
@[simp] theorem Block.popTried_blevel :
    (b.popTried c).blevel = b.blevel := rfl
@[simp] theorem Block.popTried_bts :
    (b.popTried c).bts = b.bts := rfl
@[simp] theorem Block.popTried_btsv :
    (b.popTried c).btsv = b.btsv := rfl
@[simp] theorem Block.popTried_slot :
    (b.popTried c).slot = b.slot := rfl
@[simp] theorem Block.popTried_head :
    (b.popTried c).head = b.head := rfl
@[simp] theorem Block.popTried_tail :
    (b.popTried c).tail = b.tail := rfl
@[simp] theorem Block.popTried_headC :
    (b.popTried c).headC = b.headC := rfl
@[simp] theorem Block.popTried_tailP :
    (b.popTried c).tailP = b.tailP := rfl
@[simp] theorem Block.popTried_popPhase :
    (b.popTried c).popPhase = b.popPhase := rfl
@[simp] theorem Block.popTried_popLatch :
    (b.popTried c).popLatch = b.popLatch := rfl
@[simp] theorem Block.popTried_pushAtt :
    (b.popTried c).pushAtt = b.pushAtt := rfl
@[simp] theorem Block.popTried_pushOk :
    (b.popTried c).pushOk = b.pushOk := rfl
@[simp] theorem Block.popTried_dropCnt :
    (b.popTried c).dropCnt = b.dropCnt := rfl
@[simp] theorem Block.popTried_lastCh :
    (b.popTried c).lastCh = b.lastCh := rfl
@[simp] theorem Block.popTried_popAtt :
    (b.popTried c).popAtt = b.popAtt + 1 := rfl
@[simp] theorem Block.popTried_popOk :
    (b.popTried c).popOk = b.popOk := rfl
@[simp] theorem Block.popTried_headSeen : (b.popTried c).headSeen c = b.headSeen c := rfl
@[simp] theorem Block.popTried_tailSeen : (b.popTried c).tailSeen c = b.tailSeen c := rfl
@[simp] theorem Block.popTried_occ : (b.popTried c).occ c = b.occ c := rfl
@[simp] theorem Block.popTried_occC : (b.popTried c).occC c = b.occC c := rfl
@[simp] theorem Block.popTried_occP : (b.popTried c).occP c = b.occP c := rfl
@[simp] theorem Block.popTried_isEmpty : (b.popTried c).isEmpty c = b.isEmpty c := rfl
@[simp] theorem Block.popTried_isFull : (b.popTried c).isFull c = b.isFull c := rfl

/-! ### inPhase -/

@[simp] theorem Block.inPhase_hist (p : PopPhase) :
    (b.inPhase c p).hist = b.hist := rfl
@[simp] theorem Block.inPhase_acc (p : PopPhase) :
    (b.inPhase c p).acc = b.acc := rfl
@[simp] theorem Block.inPhase_encActivity (p : PopPhase) :
    (b.inPhase c p).encActivity = b.encActivity := rfl
@[simp] theorem Block.inPhase_blevel (p : PopPhase) :
    (b.inPhase c p).blevel = b.blevel := rfl
@[simp] theorem Block.inPhase_bts (p : PopPhase) :
    (b.inPhase c p).bts = b.bts := rfl
@[simp] theorem Block.inPhase_btsv (p : PopPhase) :
    (b.inPhase c p).btsv = b.btsv := rfl
@[simp] theorem Block.inPhase_slot (p : PopPhase) :
    (b.inPhase c p).slot = b.slot := rfl
@[simp] theorem Block.inPhase_head (p : PopPhase) :
    (b.inPhase c p).head = b.head := rfl
@[simp] theorem Block.inPhase_tail (p : PopPhase) :
    (b.inPhase c p).tail = b.tail := rfl
@[simp] theorem Block.inPhase_headC (p : PopPhase) :
    (b.inPhase c p).headC = b.headC := rfl
@[simp] theorem Block.inPhase_tailP (p : PopPhase) :
    (b.inPhase c p).tailP = b.tailP := rfl
@[simp] theorem Block.inPhase_popPhase (p : PopPhase) :
    (b.inPhase c p).popPhase = p := rfl
@[simp] theorem Block.inPhase_popLatch (p : PopPhase) :
    (b.inPhase c p).popLatch = b.popLatch := rfl
@[simp] theorem Block.inPhase_pushAtt (p : PopPhase) :
    (b.inPhase c p).pushAtt = b.pushAtt := rfl
@[simp] theorem Block.inPhase_pushOk (p : PopPhase) :
    (b.inPhase c p).pushOk = b.pushOk := rfl
@[simp] theorem Block.inPhase_dropCnt (p : PopPhase) :
    (b.inPhase c p).dropCnt = b.dropCnt := rfl
@[simp] theorem Block.inPhase_lastCh (p : PopPhase) :
    (b.inPhase c p).lastCh = b.lastCh := rfl
@[simp] theorem Block.inPhase_popAtt (p : PopPhase) :
    (b.inPhase c p).popAtt = b.popAtt := rfl
@[simp] theorem Block.inPhase_popOk (p : PopPhase) :
    (b.inPhase c p).popOk = b.popOk := rfl
@[simp] theorem Block.inPhase_headSeen (p : PopPhase) : (b.inPhase c p).headSeen c = b.headSeen c := rfl
@[simp] theorem Block.inPhase_tailSeen (p : PopPhase) : (b.inPhase c p).tailSeen c = b.tailSeen c := rfl
@[simp] theorem Block.inPhase_occ (p : PopPhase) : (b.inPhase c p).occ c = b.occ c := rfl
@[simp] theorem Block.inPhase_occC (p : PopPhase) : (b.inPhase c p).occC c = b.occC c := rfl
@[simp] theorem Block.inPhase_occP (p : PopPhase) : (b.inPhase c p).occP c = b.occP c := rfl
@[simp] theorem Block.inPhase_isEmpty (p : PopPhase) : (b.inPhase c p).isEmpty c = b.isEmpty c := rfl
@[simp] theorem Block.inPhase_isFull (p : PopPhase) : (b.inPhase c p).isFull c = b.isFull c := rfl

/-! ### latched -/

@[simp] theorem Block.latched_hist (ev : Event c.toShape) :
    (b.latched c ev).hist = b.hist := rfl
@[simp] theorem Block.latched_acc (ev : Event c.toShape) :
    (b.latched c ev).acc = b.acc := rfl
@[simp] theorem Block.latched_encActivity (ev : Event c.toShape) :
    (b.latched c ev).encActivity = b.encActivity := rfl
@[simp] theorem Block.latched_blevel (ev : Event c.toShape) :
    (b.latched c ev).blevel = b.blevel := rfl
@[simp] theorem Block.latched_bts (ev : Event c.toShape) :
    (b.latched c ev).bts = b.bts := rfl
@[simp] theorem Block.latched_btsv (ev : Event c.toShape) :
    (b.latched c ev).btsv = b.btsv := rfl
@[simp] theorem Block.latched_slot (ev : Event c.toShape) :
    (b.latched c ev).slot = b.slot := rfl
@[simp] theorem Block.latched_head (ev : Event c.toShape) :
    (b.latched c ev).head = b.head := rfl
@[simp] theorem Block.latched_tail (ev : Event c.toShape) :
    (b.latched c ev).tail = b.tail := rfl
@[simp] theorem Block.latched_headC (ev : Event c.toShape) :
    (b.latched c ev).headC = b.headC := rfl
@[simp] theorem Block.latched_tailP (ev : Event c.toShape) :
    (b.latched c ev).tailP = b.tailP := rfl
@[simp] theorem Block.latched_popPhase (ev : Event c.toShape) :
    (b.latched c ev).popPhase = b.popPhase := rfl
@[simp] theorem Block.latched_popLatch (ev : Event c.toShape) :
    (b.latched c ev).popLatch = some ev := rfl
@[simp] theorem Block.latched_pushAtt (ev : Event c.toShape) :
    (b.latched c ev).pushAtt = b.pushAtt := rfl
@[simp] theorem Block.latched_pushOk (ev : Event c.toShape) :
    (b.latched c ev).pushOk = b.pushOk := rfl
@[simp] theorem Block.latched_dropCnt (ev : Event c.toShape) :
    (b.latched c ev).dropCnt = b.dropCnt := rfl
@[simp] theorem Block.latched_lastCh (ev : Event c.toShape) :
    (b.latched c ev).lastCh = b.lastCh := rfl
@[simp] theorem Block.latched_popAtt (ev : Event c.toShape) :
    (b.latched c ev).popAtt = b.popAtt := rfl
@[simp] theorem Block.latched_popOk (ev : Event c.toShape) :
    (b.latched c ev).popOk = b.popOk := rfl
@[simp] theorem Block.latched_headSeen (ev : Event c.toShape) : (b.latched c ev).headSeen c = b.headSeen c := rfl
@[simp] theorem Block.latched_tailSeen (ev : Event c.toShape) : (b.latched c ev).tailSeen c = b.tailSeen c := rfl
@[simp] theorem Block.latched_occ (ev : Event c.toShape) : (b.latched c ev).occ c = b.occ c := rfl
@[simp] theorem Block.latched_occC (ev : Event c.toShape) : (b.latched c ev).occC c = b.occC c := rfl
@[simp] theorem Block.latched_occP (ev : Event c.toShape) : (b.latched c ev).occP c = b.occP c := rfl
@[simp] theorem Block.latched_isEmpty (ev : Event c.toShape) : (b.latched c ev).isEmpty c = b.isEmpty c := rfl
@[simp] theorem Block.latched_isFull (ev : Event c.toShape) : (b.latched c ev).isFull c = b.isFull c := rfl

/-! ### consumed -/

@[simp] theorem Block.consumed_hist :
    (b.consumed c).hist = b.hist := rfl
@[simp] theorem Block.consumed_acc :
    (b.consumed c).acc = b.acc := rfl
@[simp] theorem Block.consumed_encActivity :
    (b.consumed c).encActivity = b.encActivity := rfl
@[simp] theorem Block.consumed_blevel :
    (b.consumed c).blevel = b.blevel := rfl
@[simp] theorem Block.consumed_bts :
    (b.consumed c).bts = b.bts := rfl
@[simp] theorem Block.consumed_btsv :
    (b.consumed c).btsv = b.btsv := rfl
@[simp] theorem Block.consumed_slot :
    (b.consumed c).slot = b.slot := rfl
@[simp] theorem Block.consumed_head :
    (b.consumed c).head = b.head := rfl
@[simp] theorem Block.consumed_tail :
    (b.consumed c).tail = nextIndex c b.tail := rfl
@[simp] theorem Block.consumed_headC :
    (b.consumed c).headC = b.headC := rfl
@[simp] theorem Block.consumed_tailP :
    (b.consumed c).tailP = b.tailP := rfl
@[simp] theorem Block.consumed_popPhase :
    (b.consumed c).popPhase = b.popPhase := rfl
@[simp] theorem Block.consumed_popLatch :
    (b.consumed c).popLatch = b.popLatch := rfl
@[simp] theorem Block.consumed_pushAtt :
    (b.consumed c).pushAtt = b.pushAtt := rfl
@[simp] theorem Block.consumed_pushOk :
    (b.consumed c).pushOk = b.pushOk := rfl
@[simp] theorem Block.consumed_dropCnt :
    (b.consumed c).dropCnt = b.dropCnt := rfl
@[simp] theorem Block.consumed_lastCh :
    (b.consumed c).lastCh = b.lastCh := rfl
@[simp] theorem Block.consumed_popAtt :
    (b.consumed c).popAtt = b.popAtt := rfl
@[simp] theorem Block.consumed_popOk :
    (b.consumed c).popOk = b.popOk + 1 := rfl
@[simp] theorem Block.consumed_headSeen : (b.consumed c).headSeen c = b.headSeen c := rfl

/-! ### headCopied -/

@[simp] theorem Block.headCopied_hist : (b.headCopied c).hist = b.hist := rfl
@[simp] theorem Block.headCopied_acc : (b.headCopied c).acc = b.acc := rfl
@[simp] theorem Block.headCopied_encActivity : (b.headCopied c).encActivity = b.encActivity := rfl
@[simp] theorem Block.headCopied_blevel : (b.headCopied c).blevel = b.blevel := rfl
@[simp] theorem Block.headCopied_bts : (b.headCopied c).bts = b.bts := rfl
@[simp] theorem Block.headCopied_btsv : (b.headCopied c).btsv = b.btsv := rfl
@[simp] theorem Block.headCopied_slot : (b.headCopied c).slot = b.slot := rfl
@[simp] theorem Block.headCopied_head : (b.headCopied c).head = b.head := rfl
@[simp] theorem Block.headCopied_tail : (b.headCopied c).tail = b.tail := rfl
@[simp] theorem Block.headCopied_headC : (b.headCopied c).headC = if c.cdc = .graySync then b.head else b.headC := rfl
@[simp] theorem Block.headCopied_tailP : (b.headCopied c).tailP = b.tailP := rfl
@[simp] theorem Block.headCopied_popPhase : (b.headCopied c).popPhase = b.popPhase := rfl
@[simp] theorem Block.headCopied_popLatch : (b.headCopied c).popLatch = b.popLatch := rfl
@[simp] theorem Block.headCopied_pushAtt : (b.headCopied c).pushAtt = b.pushAtt := rfl
@[simp] theorem Block.headCopied_pushOk : (b.headCopied c).pushOk = b.pushOk := rfl
@[simp] theorem Block.headCopied_dropCnt : (b.headCopied c).dropCnt = b.dropCnt := rfl
@[simp] theorem Block.headCopied_lastCh : (b.headCopied c).lastCh = b.lastCh := rfl
@[simp] theorem Block.headCopied_popAtt : (b.headCopied c).popAtt = b.popAtt := rfl
@[simp] theorem Block.headCopied_popOk : (b.headCopied c).popOk = b.popOk := rfl
/-! ### tailCopied -/

@[simp] theorem Block.tailCopied_hist : (b.tailCopied c).hist = b.hist := rfl
@[simp] theorem Block.tailCopied_acc : (b.tailCopied c).acc = b.acc := rfl
@[simp] theorem Block.tailCopied_encActivity : (b.tailCopied c).encActivity = b.encActivity := rfl
@[simp] theorem Block.tailCopied_blevel : (b.tailCopied c).blevel = b.blevel := rfl
@[simp] theorem Block.tailCopied_bts : (b.tailCopied c).bts = b.bts := rfl
@[simp] theorem Block.tailCopied_btsv : (b.tailCopied c).btsv = b.btsv := rfl
@[simp] theorem Block.tailCopied_slot : (b.tailCopied c).slot = b.slot := rfl
@[simp] theorem Block.tailCopied_head : (b.tailCopied c).head = b.head := rfl
@[simp] theorem Block.tailCopied_tail : (b.tailCopied c).tail = b.tail := rfl
@[simp] theorem Block.tailCopied_headC : (b.tailCopied c).headC = b.headC := rfl
@[simp] theorem Block.tailCopied_tailP : (b.tailCopied c).tailP = if c.cdc = .graySync then b.tail else b.tailP := rfl
@[simp] theorem Block.tailCopied_popPhase : (b.tailCopied c).popPhase = b.popPhase := rfl
@[simp] theorem Block.tailCopied_popLatch : (b.tailCopied c).popLatch = b.popLatch := rfl
@[simp] theorem Block.tailCopied_pushAtt : (b.tailCopied c).pushAtt = b.pushAtt := rfl
@[simp] theorem Block.tailCopied_pushOk : (b.tailCopied c).pushOk = b.pushOk := rfl
@[simp] theorem Block.tailCopied_dropCnt : (b.tailCopied c).dropCnt = b.dropCnt := rfl
@[simp] theorem Block.tailCopied_lastCh : (b.tailCopied c).lastCh = b.lastCh := rfl
@[simp] theorem Block.tailCopied_popAtt : (b.tailCopied c).popAtt = b.popAtt := rfl
@[simp] theorem Block.tailCopied_popOk : (b.tailCopied c).popOk = b.popOk := rfl

/-- After SYNC_H the consumer sees HEAD itself, in both modes. -/
@[simp] theorem Block.headCopied_headSeen : (b.headCopied c).headSeen c = b.head := by
  cases h : c.cdc <;> simp [Block.headSeen, h]

/-- SYNC_H leaves the producers' view. -/
@[simp] theorem Block.headCopied_tailSeen : (b.headCopied c).tailSeen c = b.tailSeen c := rfl

/-- After SYNC_T the producers see TAIL itself, in both modes. -/
@[simp] theorem Block.tailCopied_tailSeen : (b.tailCopied c).tailSeen c = b.tail := by
  cases h : c.cdc <;> simp [Block.tailSeen, h]

/-- SYNC_T leaves the consumer's view. -/
@[simp] theorem Block.tailCopied_headSeen : (b.tailCopied c).headSeen c = b.headSeen c := rfl

/-- The synchroniser steps leave the true occupancy. -/
@[simp] theorem Block.headCopied_occ : (b.headCopied c).occ c = b.occ c := rfl
@[simp] theorem Block.tailCopied_occ : (b.tailCopied c).occ c = b.occ c := rfl

/-! ### The machine -/

variable (s : State) (rest : List OpWord) (w : OpWord) (r : Reason)

@[simp] theorem State.advanced_block : (s.advanced rest).block = s.block := rfl
@[simp] theorem State.advanced_stream : (s.advanced rest).stream = rest := rfl
@[simp] theorem State.advanced_sp : (s.advanced rest).sp = s.sp + 1 := rfl
@[simp] theorem State.advanced_ret : (s.advanced rest).ret = s.ret := rfl
@[simp] theorem State.refusedWord_block : (s.refusedWord r).block = s.block := rfl
@[simp] theorem State.refusedWord_stream : (s.refusedWord r).stream = s.stream := rfl
@[simp] theorem State.refusedWord_sp : (s.refusedWord r).sp = s.sp := rfl
@[simp] theorem State.refusedWord_ret : (s.refusedWord r).ret = some (.refused r) := rfl
@[simp] theorem State.offerWord_block : (s.offerWord w).block = s.block := rfl
@[simp] theorem State.offerWord_stream : (s.offerWord w).stream = w :: s.stream := rfl
@[simp] theorem State.offerWord_sp : (s.offerWord w).sp = s.sp := rfl
@[simp] theorem State.offerWord_ret : (s.offerWord w).ret = s.ret := rfl

end Sys2Proof.Machine
end

