-- ==== Sys2Proof/Laws/Ops.lean ====
section
/-! SUPPORT. For each shared operation and each operation of the block, everything it can answer, said once: if it
completes in block `b'` with result `r`, then one of these cases holds. Proofs cite these and do not unfold the
definitions. -/

namespace Sys2Proof.Machine

variable {c : Config} {b b' : Block c.toShape} {r : Result c.toShape}

/-! ### Shared operations -/

@[simp] theorem complete_ok : complete c b r = .ok (b, r) := rfl

@[simp] theorem refuse_ok (why : Reason) : refuse c b why = .ok (b, .refused why) := rfl

/-- In the required phase the operation is what follows. -/
theorem requirePhase_of_eq {p : PopPhase} (k : Completion c) (h : b.popPhase = p) : requirePhase c p b k = k := by
  simp [requirePhase, h]

/-- In any other phase it is refused with BAD_PHASE. -/
theorem requirePhase_of_ne {p : PopPhase} (k : Completion c) (h : b.popPhase ≠ p) :
    requirePhase c p b k = .ok (b, .refused .badPhase) := by simp [requirePhase, h]

/-- Everything a phase requirement can answer. -/
theorem requirePhase_ok {p : PopPhase} {k : Completion c} :
    requirePhase c p b k = .ok (b', r) ↔
      (b.popPhase = p ∧ k = .ok (b', r)) ∨ (b.popPhase ≠ p ∧ b' = b ∧ r = .refused .badPhase) := by
  by_cases h : b.popPhase = p
  · simp [requirePhase, h]
  · simp [requirePhase, h, eq_comm]

/-- A zero extension keeps the unsigned value (R15). -/
theorem zext_toNat {n m : Nat} (v : BitVec m) (h : m ≤ n) : (zext n v).toNat = v.toNat := by
  simp only [zext, h, if_true, BitVec.toNat_setWidth]
  exact Nat.mod_eq_of_lt (Nat.lt_of_lt_of_le v.isLt (Nat.pow_le_pow_right (by decide) h))

/-- A channel number that is one. -/
theorem encChannel_of_lt {e : Nat} (h : e < c.nEnc) : encChannel c e = some ⟨e, h⟩ := by simp [encChannel, h]

theorem encChannel_of_ge {e : Nat} (h : c.nEnc ≤ e) : encChannel c e = none := by simp [encChannel, Nat.not_lt.mpr h]

theorem btnChannel_of_lt {n : Nat} (h : n < c.nBtn) : btnChannel c n = some ⟨n, h⟩ := by simp [btnChannel, h]

theorem btnChannel_of_ge {n : Nat} (h : c.nBtn ≤ n) : btnChannel c n = none := by simp [btnChannel, Nat.not_lt.mpr h]

/-- Everything the procedure PUSH can answer (R140): dropped, or stored and published. -/
theorem Block.offer_ok {ev : Event c.toShape} {st : Status} :
    b.offer c ev = .ok (b', st) ↔
      (b.isFull c = true ∧ b' = (b.attempted c ev.ch).dropped c ∧ st = .full) ∨
      (b.isFull c = false ∧ b.head < c.qsize ∧
        b' = (b.attempted c ev.ch).published c (Memory.write b.slot b.head ev) ∧ st = .ok) := by
  unfold Block.offer
  by_cases hf : b.isFull c = true
  · rw [if_pos (show (b.attempted c ev.ch).isFull c = true from hf)]
    simp [hf, eq_comm]
  · rw [if_neg (show ¬ (b.attempted c ev.ch).isFull c = true from hf)]
    simp only [Bool.not_eq_true] at hf
    simp only [hf, Bool.false_eq_true, false_and, false_or, true_and, Block.attempted_slot, Block.attempted_head]
    unfold memWrite
    by_cases hq : b.head < c.qsize <;> simp [hq, eq_comm]

/-! ### The operations -/

theorem Block.encEdge_ok {e : Nat} {a p : Bool} :
    b.encEdge c e a p = .ok (b', r) ↔
      (c.nEnc ≤ e ∧ b' = b ∧ r = .refused .badChannel) ∨
      ∃ ch : Fin c.nEnc, ch.val = e ∧
        b' = b.decoded c ch (shiftIn b.hist[ch] (sample a p)) (stepOf c ch (shiftIn b.hist[ch] (sample a p))) ∧
        r = .stepped (shiftIn b.hist[ch] (sample a p)) (stepOf c ch (shiftIn b.hist[ch] (sample a p))) := by
  unfold Block.encEdge
  rcases Nat.lt_or_ge e c.nEnc with h | h
  · simp only [encChannel_of_lt h, complete_ok, Except.ok.injEq, Prod.mk.injEq, Nat.not_le.mpr h, false_and, false_or]
    constructor
    · rintro ⟨rfl, rfl⟩; exact ⟨⟨e, h⟩, rfl, rfl, rfl⟩
    · rintro ⟨⟨_, _⟩, rfl, rfl, rfl⟩; exact ⟨rfl, rfl⟩
  · simp only [encChannel_of_ge h, refuse_ok, Except.ok.injEq, Prod.mk.injEq, h, true_and]
    constructor
    · rintro ⟨rfl, rfl⟩; exact .inl ⟨rfl, rfl⟩
    · rintro (⟨rfl, rfl⟩ | ⟨ch, rfl, _⟩)
      · exact ⟨rfl, rfl⟩
      · exact absurd ch.isLt (Nat.not_lt.mpr h)

/-- Everything an accepted press can answer (R124). -/
theorem Block.acceptPress_ok {n : Fin c.nBtn} {now : BitVec c.tsW} :
    b.acceptPress c n now = .ok (b', r) ↔
      (b.isFull c = true ∧
        b' = ((b.attempted c (wrap c.chW n)).dropped c).pressedAt c n now ∧ r = .status .acceptedDropped) ∨
      (b.isFull c = false ∧ b.head < c.qsize ∧
        b' = ((b.attempted c (wrap c.chW n)).published c
          (Memory.write b.slot b.head (eventOf c n .press now))).pressedAt c n now ∧ r = .status .accepted) := by
  unfold Block.acceptPress
  constructor
  · intro h
    split at h
    · cases h
    · next b1 ho =>
      rcases Block.offer_ok.mp ho with ⟨_, _, hst⟩ | ⟨hf, hq, rfl, _⟩
      · cases hst
      · simp only [complete_ok, Except.ok.injEq, Prod.mk.injEq] at h
        exact .inr ⟨hf, hq, h.1.symm, h.2.symm⟩
    · next b1 st hne ho =>
      rcases Block.offer_ok.mp ho with ⟨hf, rfl, _⟩ | ⟨_, _, _, hst⟩
      · simp only [complete_ok, Except.ok.injEq, Prod.mk.injEq] at h
        exact .inl ⟨hf, h.1.symm, h.2.symm⟩
      · exact absurd hst hne
  · rintro (⟨hf, rfl, rfl⟩ | ⟨hf, hq, rfl, rfl⟩)
    · rw [Block.offer_ok.mpr (.inl ⟨hf, rfl, rfl⟩)]; rfl
    · rw [Block.offer_ok.mpr (.inr ⟨hf, hq, rfl, rfl⟩)]; rfl

/-- Everything BTN_EDGE can answer (R120): refused, or one of its six paths. -/
theorem Block.btnEdge_ok {k : Nat} {lvl rs : Level} {now : Nat} :
    b.btnEdge c k lvl rs now = .ok (b', r) ↔
      (c.nBtn ≤ k ∧ b' = b ∧ r = .refused .badChannel) ∨
      ∃ n : Fin c.nBtn, n.val = k ∧
        ((b.lockedOut c n (clockOf c now) = true ∧ b' = b ∧ r = .status .lockedOut) ∨
         (b.lockedOut c n (clockOf c now) = false ∧
          ((lvl = .released ∧ b' = b.releasedAt c n ∧ r = .status .releaseRecorded) ∨
           (lvl = .pressed ∧ b.blevel[n] = .pressed ∧ b' = b ∧ r = .status .alreadyPressed) ∨
           (lvl = .pressed ∧ b.blevel[n] = .released ∧ rs = .released ∧ b' = b ∧ r = .status .glitchRejected) ∨
           (lvl = .pressed ∧ b.blevel[n] = .released ∧ rs = .pressed ∧
             b.acceptPress c n (clockOf c now) = .ok (b', r))))) := by
  unfold Block.btnEdge
  rcases Nat.lt_or_ge k c.nBtn with h | h
  · simp only [btnChannel_of_lt h, Nat.not_le.mpr h, false_and, false_or]
    have key : ∀ P : Fin c.nBtn → Prop, (∃ n : Fin c.nBtn, n.val = k ∧ P n) ↔ P ⟨k, h⟩ := fun P =>
      ⟨by rintro ⟨⟨_, _⟩, rfl, hp⟩; exact hp, fun hp => ⟨_, rfl, hp⟩⟩
    rw [key]
    by_cases hl : b.lockedOut c ⟨k, h⟩ (clockOf c now) = true
    · simp only [hl, if_true, complete_ok, Except.ok.injEq, Prod.mk.injEq, true_and, Bool.true_eq_false, false_and,
        or_false]
      exact and_congr eq_comm eq_comm
    · simp only [Bool.not_eq_true] at hl
      simp only [hl, Bool.false_eq_true, if_false, false_and, false_or, true_and]
      cases lvl
      · simp [eq_comm]
      · cases hb : b.blevel[(⟨k, h⟩ : Fin c.nBtn)]
        · cases rs
          · simp only [Block.pressEdge, hb, reduceCtorEq, if_false, ne_eq, not_false_eq_true, if_true, complete_ok,
              Except.ok.injEq, Prod.mk.injEq, false_and, false_or, true_and, or_false, eq_comm]
          · simp only [Block.pressEdge, hb, reduceCtorEq, if_false, ne_eq, not_true_eq_false, false_and, false_or,
              true_and]
        · simp only [Block.pressEdge, hb, reduceCtorEq, if_true, complete_ok, Except.ok.injEq, Prod.mk.injEq,
            false_and, false_or, true_and, or_false, eq_comm]
  · simp only [btnChannel_of_ge h, refuse_ok, Except.ok.injEq, Prod.mk.injEq, h, true_and]
    constructor
    · rintro ⟨rfl, rfl⟩; exact .inl ⟨rfl, rfl⟩
    · rintro (⟨rfl, rfl⟩ | ⟨n, rfl, _⟩)
      · exact ⟨rfl, rfl⟩
      · exact absurd n.isLt (Nat.not_lt.mpr h)

theorem Block.push_ok {k : Nat} {kind : Kind} {ts : Nat} :
    b.push c k kind ts = .ok (b', r) ↔
      (c.nBtn ≤ k ∧ b' = b ∧ r = .refused .badChannel) ∨
      ∃ n : Fin c.nBtn, n.val = k ∧
        ((b.isFull c = true ∧ b' = (b.attempted c (wrap c.chW n)).dropped c ∧ r = .status .full) ∨
         (b.isFull c = false ∧ b.head < c.qsize ∧
          b' = (b.attempted c (wrap c.chW n)).published c
            (Memory.write b.slot b.head (eventOf c n kind (clockOf c ts))) ∧ r = .status .ok)) := by
  unfold Block.push
  rcases Nat.lt_or_ge k c.nBtn with h | h
  · simp only [btnChannel_of_lt h, Nat.not_le.mpr h, false_and, false_or]
    have key : ∀ P : Fin c.nBtn → Prop, (∃ n : Fin c.nBtn, n.val = k ∧ P n) ↔ P ⟨k, h⟩ := fun P =>
      ⟨by rintro ⟨⟨_, _⟩, rfl, hp⟩; exact hp, fun hp => ⟨_, rfl, hp⟩⟩
    rw [key]
    constructor
    · intro hr
      split at hr
      · cases hr
      · next b1 st ho =>
        simp only [complete_ok, Except.ok.injEq, Prod.mk.injEq] at hr
        obtain ⟨rfl, rfl⟩ := hr
        rcases Block.offer_ok.mp ho with ⟨hf, rfl, rfl⟩ | ⟨hf, hq, rfl, rfl⟩
        · exact .inl ⟨hf, rfl, rfl⟩
        · exact .inr ⟨hf, hq, rfl, rfl⟩
    · rintro (⟨hf, rfl, rfl⟩ | ⟨hf, hq, rfl, rfl⟩)
      · rw [Block.offer_ok.mpr (.inl ⟨hf, rfl, rfl⟩)]; rfl
      · rw [Block.offer_ok.mpr (.inr ⟨hf, hq, rfl, rfl⟩)]; rfl
  · simp only [btnChannel_of_ge h, refuse_ok, Except.ok.injEq, Prod.mk.injEq, h, true_and]
    constructor
    · rintro ⟨rfl, rfl⟩; exact .inl ⟨rfl, rfl⟩
    · rintro (⟨rfl, rfl⟩ | ⟨n, rfl, _⟩)
      · exact ⟨rfl, rfl⟩
      · exact absurd n.isLt (Nat.not_lt.mpr h)

theorem Block.popChk_ok :
    b.popChk c = .ok (b', r) ↔
      (b.popPhase ≠ .idle ∧ b' = b ∧ r = .refused .badPhase) ∨
      (b.popPhase = .idle ∧ b.isEmpty c = true ∧ b' = b.popTried c ∧ r = .status .empty) ∨
      (b.popPhase = .idle ∧ b.isEmpty c = false ∧ b' = (b.popTried c).inPhase c .haveEvent ∧
        r = .status .present) := by
  unfold Block.popChk
  rw [requirePhase_ok]
  by_cases hp : b.popPhase = .idle
  · cases he : b.isEmpty c <;> simp [hp, he, eq_comm]
  · simp [hp]

theorem Block.popRd_ok :
    b.popRd c = .ok (b', r) ↔
      (b.popPhase ≠ .haveEvent ∧ b' = b ∧ r = .refused .badPhase) ∨
      (b.popPhase = .haveEvent ∧ b.tail < c.qsize ∧ ∃ ev, Memory.read b.slot b.tail = some ev ∧
        b' = (b.latched c ev).inPhase c .copied ∧ r = .status .ok) := by
  unfold Block.popRd
  rw [requirePhase_ok]
  by_cases hp : b.popPhase = .haveEvent
  · simp only [hp, true_and, ne_eq, not_true_eq_false, false_and, or_false, false_or]
    unfold memRead
    by_cases hq : b.tail < c.qsize
    · simp only [hq, if_true, true_and]
      cases hm : Memory.read b.slot b.tail <;> simp [eq_comm]
    · simp [hq]
  · simp [hp]

theorem Block.popPub_ok :
    b.popPub c = .ok (b', r) ↔
      (b.popPhase ≠ .copied ∧ b' = b ∧ r = .refused .badPhase) ∨
      (b.popPhase = .copied ∧ ∃ ev, b.popLatch = some ev ∧
        b' = (b.consumed c).inPhase c .idle ∧ r = .event ev) := by
  unfold Block.popPub
  rw [requirePhase_ok]
  by_cases hp : b.popPhase = .copied
  · cases hl : b.popLatch <;> simp [hp, eq_comm]
  · simp [hp]

theorem Block.pop_ok :
    b.pop c = .ok (b', r) ↔
      (b.popPhase ≠ .idle ∧ b' = b ∧ r = .refused .badPhase) ∨
      (b.popPhase = .idle ∧ b.isEmpty c = true ∧ b' = b.popTried c ∧ r = .status .empty) ∨
      (b.popPhase = .idle ∧ b.isEmpty c = false ∧ b.tail < c.qsize ∧ ∃ ev, Memory.read b.slot b.tail = some ev ∧
        b' = ((b.popTried c).latched c ev).consumed c ∧ r = .event ev) := by
  unfold Block.pop
  rw [requirePhase_ok]
  by_cases hp : b.popPhase = .idle
  · simp only [hp, true_and, ne_eq, not_true_eq_false, false_and, or_false, false_or]
    cases he : b.isEmpty c
    · simp only [Block.popTried_isEmpty, he, Bool.false_eq_true, if_false, false_and, false_or, true_and,
        Block.popTried_slot, Block.popTried_tail]
      unfold memRead
      by_cases hq : b.tail < c.qsize
      · simp only [hq, if_true, true_and]
        cases hm : Memory.read b.slot b.tail <;> simp [eq_comm]
      · simp [hq]
    · simp [he, eq_comm]
  · simp [hp]

theorem Block.size_ok :
    b.size c = .ok (b', r) ↔
      b' = b ∧ ((b.popPhase ≠ .idle ∧ r = .refused .badPhase) ∨
        (b.popPhase = .idle ∧ r = .occupancy (b.occC c))) := by
  unfold Block.size
  rw [requirePhase_ok]
  by_cases hp : b.popPhase = .idle <;> simp [hp, eq_comm]

theorem Block.drain_ok :
    b.drain c = .ok (b', r) ↔
      (b.popPhase ≠ .idle ∧ b' = b ∧ r = .refused .badPhase) ∨
      (b.popPhase = .idle ∧ b' = b.cleared c ∧ r = .drained b.acc b.encActivity) := by
  unfold Block.drain
  rw [requirePhase_ok]
  by_cases hp : b.popPhase = .idle <;> simp [hp, eq_comm]

theorem Block.rddiag_ok {n : Nat} {k : DiagReg} :
    b.rddiag c n k = .ok (b', r) ↔
      b' = b ∧ ((b.popPhase ≠ .idle ∧ r = .refused .badPhase) ∨
        (b.popPhase = .idle ∧ r = .diag (b.diagRead c n k))) := by
  unfold Block.rddiag
  rw [requirePhase_ok]
  by_cases hp : b.popPhase = .idle <;> simp [hp, eq_comm]

theorem Block.syncH_ok : b.syncH c = .ok (b', r) ↔ b' = b.headCopied c ∧ r = .status .ok := by
  simp [Block.syncH, eq_comm]

theorem Block.syncT_ok : b.syncT c = .ok (b', r) ↔ b' = b.tailCopied c ∧ r = .status .ok := by
  simp [Block.syncT, eq_comm]

theorem Block.toReset_ok : b.toReset c = .ok (b', r) ↔ b' = Block.reset c.toShape ∧ r = .status .ok := by
  simp [Block.toReset, eq_comm]

/-! ### Runs -/

/-- An empty run leaves the block as it is. -/
theorem runOps_nil {n : Nat} {t : Trace c.toShape} : runOps c n [] b = .ok (b', t) ↔ b' = b ∧ t = [] := by
  rw [runOps]
  constructor
  · intro h; cases h; exact ⟨rfl, rfl⟩
  · rintro ⟨rfl, rfl⟩; rfl

/-- A run is its first operation and the run of the others (R58). -/
theorem runOps_cons {n : Nat} {i : Instr} {rest : List Instr} {t : Trace c.toShape} :
    runOps c n (i :: rest) b = .ok (b', t) ↔
      ∃ b1 r t', perform c n i b = .ok (b1, r) ∧ runOps c (n + 1) rest b1 = .ok (b', t') ∧ t = (i, r) :: t' := by
  rw [runOps]
  split
  · next f h => simp [h]
  · next b1 r h =>
    split
    · next f h2 =>
      constructor
      · intro e; cases e
      · rintro ⟨_, _, _, h3, h4, _⟩; rw [h] at h3; cases h3; rw [h2] at h4; cases h4
    · next b2 t2 h2 =>
      constructor
      · intro e; cases e; exact ⟨_, _, _, h, h2, rfl⟩
      · rintro ⟨_, _, _, h3, h4, rfl⟩; rw [h] at h3; cases h3; rw [h2] at h4; cases h4; rfl

end Sys2Proof.Machine
end

