-- ==== Sys2Proof/Laws/PerInstr.lean ====
section
/-! SUPPORT. A statement made instruction by instruction: the word of a well-formed operation selects that operation's
own row of the opcode map (30_encoding R83). -/

namespace Sys2Proof.Laws.EncodeSelectsRow

/-- The word of the operation, masked as its row says, is the row's match. -/
def Statement (i : Instr) : Prop := i.wf = true → encode i &&& (rowOf i).mask = (rowOf i).matchBits

/-- A bit of a packed word, as arithmetic. -/
theorem getLsbD_pack (op ch : Nat) (x y : Bool) (imm i : Nat)
    (h : op * 2 ^ 36 + ch * 2 ^ 34 + x.toNat * 2 ^ 33 + y.toNat * 2 ^ 32 + imm < 2 ^ 40) :
    (pack op ch x y imm).getLsbD i =
      decide ((op * 2 ^ 36 + ch * 2 ^ 34 + x.toNat * 2 ^ 33 + y.toNat * 2 ^ 32 + imm) / 2 ^ i % 2 = 1) := by
  unfold pack BitVec.getLsbD
  rw [BitVec.toNat_ofNat, Nat.mod_eq_of_lt h, Nat.testBit_eq_decide_div_mod_eq]

/-- A masked word is known if its bits are, where the mask has a bit. -/
theorem and_eq_of_bits (w m r : OpWord) (h : ∀ i < 40, m.getLsbD i = false ∧ r.getLsbD i = false ∨
    m.getLsbD i = true ∧ w.getLsbD i = r.getLsbD i) : w &&& m = r := by
  apply BitVec.eq_of_getLsbD_eq
  intro i hi
  rw [BitVec.getLsbD_and]
  rcases h i hi with ⟨h1, h2⟩ | ⟨h1, h2⟩
  · rw [h1, h2, Bool.and_false]
  · rw [h1, h2, Bool.and_true]

theorem encEdge (e : Nat) (a b : Bool) : Statement (.encEdge e a b) := by
  intro hi
  simp only [Instr.wf, channelFits, decide_eq_true_eq] at hi
  interval_cases e <;> cases a <;> cases b <;> decide

theorem btnEdge (b : Nat) (lvl rs : Level) (now : Nat) : Statement (.btnEdge b lvl rs now) := by
  intro hw
  simp only [Instr.wf, channelFits, immFits, Bool.and_eq_true, decide_eq_true_eq] at hw
  have hx := Bool.toNat_lt lvl.bit
  have hy := Bool.toNat_lt rs.bit
  show pack 0x2 b lvl.bit rs.bit now &&& 0xF000000000#40 = 0x2000000000#40
  apply and_eq_of_bits
  intro i hi
  have key : ∀ i < 40, (0xF000000000#40).getLsbD i = false ∧ (0x2000000000#40).getLsbD i = false ∨ 36 ≤ i := by decide
  rcases key i hi with h | h
  · exact .inl h
  · right
    rw [getLsbD_pack _ _ _ _ _ _ (by omega)]
    generalize lvl.bit.toNat = x at *
    generalize rs.bit.toNat = y at *
    interval_cases i
    · exact ⟨by decide, by rw [show (0x2000000000#40).getLsbD 36 = false by decide, decide_eq_false_iff_not]; omega⟩
    · exact ⟨by decide, by rw [show (0x2000000000#40).getLsbD 37 = true by decide, decide_eq_true_eq]; omega⟩
    · exact ⟨by decide, by rw [show (0x2000000000#40).getLsbD 38 = false by decide, decide_eq_false_iff_not]; omega⟩
    · exact ⟨by decide, by rw [show (0x2000000000#40).getLsbD 39 = false by decide, decide_eq_false_iff_not]; omega⟩

theorem push (ch : Nat) (kind : Kind) (ts : Nat) : Statement (.push ch kind ts) := by
  intro hw
  simp only [Instr.wf, channelFits, immFits, Bool.and_eq_true, decide_eq_true_eq] at hw
  have hx := Bool.toNat_lt kind.bit
  have hy : Bool.toNat false = 0 := rfl
  show pack 0x3 ch kind.bit false ts &&& 0xF100000000#40 = 0x3000000000#40
  apply and_eq_of_bits
  intro i hi
  have key : ∀ i < 40, (0xF100000000#40).getLsbD i = false ∧ (0x3000000000#40).getLsbD i = false ∨ 36 ≤ i ∨ i = 32 := by
    decide
  rcases key i hi with h | h
  · exact .inl h
  · right
    rw [getLsbD_pack _ _ _ _ _ _ (by omega), hy]
    generalize kind.bit.toNat = x at *
    rcases h with h | rfl
    · interval_cases i
      · exact ⟨by decide, by rw [show (0x3000000000#40).getLsbD 36 = true by decide, decide_eq_true_eq]; omega⟩
      · exact ⟨by decide, by rw [show (0x3000000000#40).getLsbD 37 = true by decide, decide_eq_true_eq]; omega⟩
      · exact ⟨by decide, by rw [show (0x3000000000#40).getLsbD 38 = false by decide, decide_eq_false_iff_not]; omega⟩
      · exact ⟨by decide, by rw [show (0x3000000000#40).getLsbD 39 = false by decide, decide_eq_false_iff_not]; omega⟩
    · exact ⟨by decide, by rw [show (0x3000000000#40).getLsbD 32 = false by decide, decide_eq_false_iff_not]; omega⟩

theorem drain : Statement .drain := fun _ => by decide
theorem popChk : Statement .popChk := fun _ => by decide
theorem popRd : Statement .popRd := fun _ => by decide
theorem popPub : Statement .popPub := fun _ => by decide
theorem pop : Statement .pop := fun _ => by decide
theorem size : Statement .size := fun _ => by decide
theorem rddiag0 : Statement .rddiag0 := fun _ => by decide
theorem rddiag1 : Statement .rddiag1 := fun _ => by decide
theorem rddiag2 : Statement .rddiag2 := fun _ => by decide
theorem rddiag3 : Statement .rddiag3 := fun _ => by decide
theorem rddiag4 : Statement .rddiag4 := fun _ => by decide
theorem rddiag5 : Statement .rddiag5 := fun _ => by decide
theorem syncH : Statement .syncH := fun _ => by decide
theorem syncT : Statement .syncT := fun _ => by decide
theorem reset : Statement .reset := fun _ => by decide

end Sys2Proof.Laws.EncodeSelectsRow
end

