-- ==== Sys2Proof/Laws/Ring.lean ====
section
/-! SUPPORT. Ring arithmetic on queue indices in a form omega can use: for indices below QSIZE a difference or a
successor is one of two plain expressions. -/

namespace Sys2Proof.Machine

/-- A difference of two indices without the remainder. -/
theorem ringSub_eq {c : Config} {x y : Nat} (hx : x < c.qsize) (hy : y < c.qsize) :
    ringSub c x y = if y ≤ x then x - y else x + c.qsize - y := by
  unfold ringSub
  split
  · next h => rw [Int.emod_eq_of_lt (by omega) (by omega)]; omega
  · next h =>
    have : ((x : Int) - y) % c.qsize = (x : Int) - y + c.qsize := by
      rw [← Int.add_emod_right]; exact Int.emod_eq_of_lt (by omega) (by omega)
    rw [this]; omega

/-- The successor of an index without the remainder. -/
theorem nextIndex_eq {c : Config} {i : Nat} (hi : i < c.qsize) :
    nextIndex c i = if i + 1 = c.qsize then 0 else i + 1 := by
  unfold nextIndex
  split
  · next h => rw [h, Nat.mod_self]
  · next h => exact Nat.mod_eq_of_lt (by omega)

theorem nextIndex_lt {c : Config} (i : Nat) (h : 0 < c.qsize) : nextIndex c i < c.qsize := Nat.mod_lt _ h

theorem ringSub_lt {c : Config} (x y : Nat) (h : 0 < c.qsize) : ringSub c x y < c.qsize := by
  unfold ringSub
  have h1 := Int.emod_nonneg ((x : Int) - y) (show (c.qsize : Int) ≠ 0 by omega)
  have h2 := Int.emod_lt_of_pos ((x : Int) - y) (show (0 : Int) < c.qsize by omega)
  omega

@[simp] theorem ringSub_self {c : Config} (x : Nat) : ringSub c x x = 0 := by simp [ringSub]

/-- An index plus a distance around the ring, without the remainder. -/
theorem ringAdd_eq {q t k : Nat} (ht : t < q) (hk : k < q) :
    (t + k) % q = if t + k < q then t + k else t + k - q := by
  split
  · next h => exact Nat.mod_eq_of_lt h
  · next h => rw [Nat.mod_eq_sub_mod (by omega), Nat.mod_eq_of_lt (by omega)]

end Sys2Proof.Machine
end

