-- ==== Sys2Proof/Laws/Step.lean ====
section
/-! SUPPORT. exec is the transition of the block at this hardware's values, and what a step can be. -/

namespace Sys2Proof.Machine

/-- Every arm of exec is perform at the values of this hardware (R7, R8). -/
theorem exec_eq_perform (i : Instr) (s : State) : exec i s = s.finish (perform Config.hw s.sp i s.block) := by
  cases i <;> rfl

/-- Everything the wrapping of a completed operation can answer. -/
theorem State.finish_next {s t : State} {k : Completion Config.hw} :
    s.finish k = .next t ↔ ∃ b r, k = .ok (b, r) ∧ t = { s with block := b, ret := some r } := by
  unfold State.finish
  split <;> simp [eq_comm]

/-- A next state of exec comes from a completed transition, and from nothing else. -/
theorem exec_next {i : Instr} {s t : State} :
    exec i s = .next t ↔
      ∃ b r, perform Config.hw s.sp i s.block = .ok (b, r) ∧ t = { s with block := b, ret := some r } := by
  rw [exec_eq_perform, State.finish_next]

/-- Everything a step can answer with a next state: waiting, a word that is no operation, or an operation. -/
theorem step_next {s t : State} :
    step s = .next t ↔
      (s.stream = [] ∧ t = s) ∨
      ∃ w rest, s.stream = w :: rest ∧
        ((∃ r, decode w = .error r ∧ t = (s.advanced rest).refusedWord r) ∨
         (∃ i, decode w = .ok i ∧ exec i (s.advanced rest) = .next t)) := by
  unfold step
  split
  · next h => simp [h, eq_comm]
  · next w rest h =>
    simp only [h, reduceCtorEq, false_and, false_or, List.cons.injEq]
    split
    · next i hd =>
      constructor
      · intro he; exact ⟨w, rest, ⟨rfl, rfl⟩, .inr ⟨i, hd, he⟩⟩
      · rintro ⟨_, _, ⟨rfl, rfl⟩, ⟨_, hr, _⟩ | ⟨j, hj, he⟩⟩
        · rw [hd] at hr; cases hr
        · rw [hd] at hj; cases hj; exact he
    · next r hd =>
      constructor
      · intro he; cases he; exact ⟨w, rest, ⟨rfl, rfl⟩, .inl ⟨r, hd, rfl⟩⟩
      · rintro ⟨_, _, ⟨rfl, rfl⟩, ⟨r', hr, rfl⟩ | ⟨_, hj, _⟩⟩
        · rw [hd] at hr; cases hr; rfl
        · rw [hd] at hj; cases hj

end Sys2Proof.Machine
end

