-- ==== Sys2Proof/Tests/Slice0.lean ====
section
/-! SUPPORT. Tests. Expected values are those of spec/95_test_vectors.md, named in each comment. The theorems named
witness_<statement> show values that meet all hypotheses of that statement together. -/

namespace Sys2Proof.Tests

open Sys2Proof.Machine

/-! ### Helpers -/

/-- The block of this hardware. -/
abbrev B := Block Config.hw.toShape

def fresh : B := Block.reset Config.hw.toShape

/-- A machine with a block. -/
def at_ (b : B) : State := { State.reset with block := b }

/-- The block after an outcome. -/
def after : Host.Outcome State Fault Refusal → Option B
  | .next t => some t.block
  | _ => none

/-- The result of an outcome. -/
def result : Host.Outcome State Fault Refusal → Option (Result Config.hw.toShape)
  | .next t => t.ret
  | _ => none

def ev (ch : BitVec 2) (ts : BitVec 32) : Event Config.hw.toShape := { ch := ch, kind := .press, ts := ts }

/-- P4 after line 5, with the phase to choose: one event seen and not yet copied, a second one pushed since. -/
def waiting (p : PopPhase) : B :=
  { fresh with
    slot := [(0, ev 0 10), (1, ev 1 11)], head := 2, headC := 1, popPhase := p
    popLatch := if p = .copied then some (ev 0 10) else none
    pushAtt := 2, pushOk := 2, lastCh := 1, popAtt := 2 }

/-- B7: nineteen events in the queue, none seen. -/
def full : B :=
  { fresh with slot := (List.range 19).map fun i => (i, ev (BitVec.ofNat 2 i) (BitVec.ofNat 32 (100 + i)))
               head := 19, pushAtt := 19, pushOk := 19, lastCh := 2 }

/-- Button 1 accepted at 0, with the recorded level to choose. -/
def armed (l : Level) : B :=
  { fresh with blevel := #v[.released, l, .released, .released], btsv := #v[false, true, false, false] }

/-- Encoder 0 at a history, with an accumulator value. -/
def turned (h : History) (v : BitVec 32) : B := { fresh with hist := #v[h, 0, 0, 0], acc := #v[v, 0, 0, 0] }

/-! The other configurations of the vectors. -/

@[reducible] def threeChannels : Config := { Config.hw with nEnc := 3, pol := [.plus, .plus, .plus] }

@[reducible] def minusOnThree : Config := { Config.hw with pol := [.plus, .plus, .plus, .minus] }

@[reducible] def skewTable : Config := { Config.hw with tt := #v[0, 0, 0, 0, -1, 0, 0, 0, 1, 0, 0, 0, 0, 0, 0, 0] }

@[reducible] def twoSlots : Config := { Config.hw with qsize := 2, idxW := 1, gOff := 0 }

@[reducible] def sameClock : Config := { Config.hw with cdc := .sameDomain }

@[reducible] def looseDiag : Config := { Config.hw with diagAtomic := false }

/-- The results of a run from reset. -/
def results (c : Config) (ops : List Instr) : Option (List (Result c.toShape)) :=
  (runOps c 0 ops (Block.reset c.toShape)).toOption.map fun p => p.2.map Prod.snd

/-! ### WellFormed refuses an ill-formed term for each check -/

theorem test_wf_refuses_enc_channel : (Instr.encEdge 4 false false).wf = false := by decide
theorem test_wf_refuses_btn_channel : (Instr.btnEdge 4 .pressed .pressed 0).wf = false := by decide
theorem test_wf_refuses_btn_clock : (Instr.btnEdge 3 .pressed .pressed 4294967296).wf = false := by decide
theorem test_wf_refuses_push_channel : (Instr.push 4 .press 0).wf = false := by decide
theorem test_wf_refuses_push_clock : (Instr.push 3 .press 4294967296).wf = false := by decide
theorem test_wf_admits_the_largest : (Instr.btnEdge 3 .released .released 4294967295).wf = true := by decide

/-! ### Words written out (X1), the two readings of the host, and refused words (X2) -/

theorem test_decode_enc_edge : decode 0x1100000000#40 = .ok (.encEdge 0 false true) := by decide
theorem test_decode_enc_edge_3 : decode 0x1E00000000#40 = .ok (.encEdge 3 true false) := by decide
theorem test_decode_btn_edge : decode 0x2700000041#40 = .ok (.btnEdge 1 .pressed .pressed 65) := by decide
theorem test_decode_btn_edge_3 : decode 0x2CFFFFFFFF#40 = .ok (.btnEdge 3 .released .released 4294967295) := by decide
theorem test_decode_btn_glitch : decode 0x2200000069#40 = .ok (.btnEdge 0 .pressed .released 105) := by decide
theorem test_decode_push : decode 0x3A00000007#40 = .ok (.push 2 .press 7) := by decide
theorem test_decode_push_release : decode 0x3400000009#40 = .ok (.push 1 .release 9) := by decide
theorem test_decode_drain : decode 0x4000000000#40 = .ok .drain := by decide
theorem test_decode_pop_chk : decode 0x5000000000#40 = .ok .popChk := by decide
theorem test_decode_pop_rd : decode 0x6000000000#40 = .ok .popRd := by decide
theorem test_decode_pop_pub : decode 0x7000000000#40 = .ok .popPub := by decide
theorem test_decode_pop : decode 0x8000000000#40 = .ok .pop := by decide
theorem test_decode_size : decode 0x9000000000#40 = .ok .size := by decide
theorem test_decode_rddiag0 : decode 0xA000000000#40 = .ok .rddiag0 := by decide
theorem test_decode_rddiag1 : decode 0xA100000000#40 = .ok .rddiag1 := by decide
theorem test_decode_rddiag2 : decode 0xA200000000#40 = .ok .rddiag2 := by decide
theorem test_decode_rddiag3 : decode 0xA300000000#40 = .ok .rddiag3 := by decide
theorem test_decode_rddiag4 : decode 0xA400000000#40 = .ok .rddiag4 := by decide
theorem test_decode_rddiag5 : decode 0xA500000000#40 = .ok .rddiag5 := by decide
theorem test_decode_sync_h : decode 0xB000000000#40 = .ok .syncH := by decide
theorem test_decode_sync_t : decode 0xC000000000#40 = .ok .syncT := by decide
theorem test_decode_reset : decode 0xF000000000#40 = .ok .reset := by decide

theorem test_refused_opcodes :
    decode 0x0000000000#40 = .error .reservedOpcode ∧ decode 0xD000000000#40 = .error .reservedOpcode ∧
    decode 0xE000000001#40 = .error .reservedOpcode := by decide
theorem test_refused_bits :
    decode 0xFFFFFFFFFF#40 = .error .reservedBits ∧ decode 0x1100000001#40 = .error .reservedBits ∧
    decode 0x3B00000007#40 = .error .reservedBits ∧ decode 0x4400000000#40 = .error .reservedBits ∧
    decode 0x8000000001#40 = .error .reservedBits ∧ decode 0xA600000001#40 = .error .reservedBits := by decide
theorem test_refused_diag :
    decode 0xA600000000#40 = .error .badDiag ∧ decode 0xAF00000000#40 = .error .badDiag := by decide
theorem test_table_word : decodeTableWord 40 0x2700000041 = some (.btnEdge 1 .pressed .pressed 65) := by decide
theorem test_fetch_word :
    result (step (State.reset.withFetchWord 40 0x1200000000)) = some (.stepped 0b0010#4 (-1)) := by decide

/-! ### The event record and the crossing code (P2, Q8, G1, G2) -/

theorem test_event_bits : (ev 1 65).toBits = 0x300000041#35 := by decide
theorem test_event_release_bits :
    ({ ch := 1, kind := .release, ts := 9 } : Event Config.hw.toShape).toBits = 0x200000009#35 := by decide
theorem test_gray_words :
    wireWord Config.hw 0 = 0b00101#5 ∧ wireWord Config.hw 1 = 0b00100#5 ∧ wireWord Config.hw 9 = 0b01000#5 ∧
    wireWord Config.hw 10 = 0b11000#5 ∧ wireWord Config.hw 19 = 0b10101#5 := by decide
theorem test_ungray : ungray 0b11000#5 = 0b10000#5 ∧ wireIndex Config.hw 0b11000#5 = some 10 := by decide
theorem test_gray_two_slots : wireWord twoSlots 0 = 0#1 ∧ wireWord twoSlots 1 = 1#1 := by decide

/-! ### The assembler (R93, R94) -/

theorem test_assemble_line : assembleLine "BTN_EDGE GREEN, P, P, 0x41 ; again => ACCEPTED".toList = some [0x2700000041#40] := by
  decide
theorem test_assemble_refuses : assembleLine "PUSH 4, PRESS, 7".toList = none := by decide
theorem test_assemble_cycle :
    assembleLine "ENC_FWD RED".toList = some [0x1100000000#40, 0x1300000000#40, 0x1200000000#40, 0x1000000000#40] := by
  decide

/-! ### ENC_EDGE -/

/-- D1, the sixteen histories: from a previous sample in the low bits, whatever the high bits. -/
theorem test_enc_forward : result (exec (.encEdge 0 false false) (at_ (turned 0b1110#4 0))) = some (.stepped 0b1000#4 1) ∧
    (after (exec (.encEdge 0 false false) (at_ (turned 0b1110#4 0)))).map (·.acc) = some #v[1, 0, 0, 0] := by decide
/-- D6: at both bounds the step is taken and lost; the activity flag is set all the same. -/
theorem test_enc_saturates :
    (after (exec (.encEdge 0 false false) (at_ (turned 0b1110#4 2147483647)))).map (fun b => (b.acc[0], b.encActivity)) =
      some (2147483647#32, true) ∧
    (after (exec (.encEdge 0 true false) (at_ (turned 0b0100#4 0x80000000)))).map (fun b => (b.acc[0], b.encActivity)) =
      some (0x80000000#32, true) := by decide
/-- D7: a channel of polarity -1. -/
theorem test_enc_polarity : results minusOnThree (encFwd 3) =
    some [.stepped 1#4 0, .stepped 7#4 0, .stepped 14#4 0, .stepped 8#4 (-1)] := by decide
/-- D10: a channel that does not exist. -/
theorem test_enc_bad_channel : results threeChannels [.encEdge 3 false true] = some [.refused .badChannel] := by decide
/-- D11: a legal table without TT_SYM leaves a phantom. -/
theorem test_enc_skew_table : skewTable.wf = true ∧ ttSym skewTable.tt = false ∧
    results skewTable [.encEdge 0 false true, .encEdge 0 false false] =
      some [.stepped 1#4 0, .stepped 4#4 (-1)] := by decide

/-! ### BTN_EDGE -/

/-- B2: the window ends at exactly DEBOUNCE. -/
theorem test_btn_window : results Config.hw [.btnEdge 0 .pressed .pressed 100, .btnEdge 0 .released .released 149,
    .btnEdge 0 .released .released 150, .btnEdge 0 .pressed .pressed 150, .btnEdge 0 .pressed .pressed 151] =
    some [.status .accepted, .status .lockedOut, .status .releaseRecorded, .status .accepted, .status .lockedOut] := by
  decide
/-- B10: the clock wraps. -/
theorem test_btn_clock_wrap : results Config.hw [.btnEdge 0 .pressed .pressed 0xFFFFFFF0, .btnEdge 0 .released .released 0x10,
    .btnEdge 0 .released .released 0x22] = some [.status .accepted, .status .lockedOut, .status .releaseRecorded] := by
  decide

/-! ### PUSH and the pops -/

/-- The example of R140: HEAD wraps. -/
theorem test_push_wraps : (after (exec (.push 2 .press 7) (at_ { fresh with head := 19, tail := 5, tailP := 5 }))).map
    (fun b => (b.head, Memory.read b.slot 19)) = some (0, some (ev 2 7)) := by decide
/-- P3, line 20: the twentieth push. -/
theorem test_push_full : result (exec (.push 3 .press 119) (at_ full)) = some (.status .full) := by decide
/-- P4, lines 4, 7 and 10. -/
theorem test_pop_in_three : result (exec .popChk (at_ (waiting .idle))) = some (.status .present) ∧
    result (exec .popRd (at_ (waiting .haveEvent))) = some (.status .ok) ∧
    result (exec .popPub (at_ (waiting .copied))) = some (.event (ev 0 10)) := by decide
/-- The example of R149, and Q1. -/
theorem test_pop : result (exec .pop (at_ (waiting .idle))) = some (.event (ev 0 10)) ∧
    result (exec .pop (at_ fresh)) = some (.status .empty) := by decide
/-- Q10: SIZE across the wrap. -/
theorem test_size : result (exec .size (at_ { fresh with headC := 2, tail := 18 })) = some (.occupancy 4) := by decide
/-- Q9: the copies. -/
theorem test_sync : (after (exec .syncH (at_ { fresh with head := 7, headC := 4 }))).map (·.headC) = some 7 ∧
    (after (exec .syncT (at_ { fresh with tail := 3 }))).map (·.tailP) = some 3 := by decide
/-- Q11: the smallest queue. -/
theorem test_two_slots : results twoSlots [.push 0 .press 1, .push 0 .press 2, .syncH, .pop, .push 0 .press 3, .syncT,
    .push 0 .press 3] = some [.status .ok, .status .full, .status .ok,
      .event { ch := 0, kind := .press, ts := 1 }, .status .full, .status .ok, .status .ok] := by decide
/-- Q7: the phases. -/
theorem test_phases : result (exec .size (at_ (waiting .haveEvent))) = some (.refused .badPhase) ∧
    result (exec .drain (at_ (waiting .copied))) = some (.refused .badPhase) ∧
    result (exec .popRd (at_ fresh)) = some (.refused .badPhase) ∧
    result (exec .popPub (at_ (waiting .haveEvent))) = some (.refused .badPhase) := by decide
/-- X3: the register number is tested before the phase. -/
theorem test_order_of_refusals :
    result (step ((at_ (waiting .haveEvent)).offerWord 0xA600000000#40)) = some (.refused .badDiag) ∧
    result (step ((at_ (waiting .haveEvent)).offerWord 0xA500000000#40)) = some (.refused .badPhase) := by decide

/-! ### DRAIN, RDDIAG, RESET and the main loop -/

/-- Y2. -/
theorem test_drain : result (exec .drain (at_ { fresh with acc := #v[1, 0, -3, 0], encActivity := true })) =
    some (.drained #v[1, 0, -3, 0] true) := by decide
/-- Y5 after P2: registers 2 to 5 differ. -/
theorem test_rddiag : [Instr.rddiag0, .rddiag1, .rddiag2, .rddiag3, .rddiag4, .rddiag5].map
    (fun i => result (exec i (at_ { fresh with pushAtt := 23, pushOk := 20, popAtt := 4, popOk := 1, dropCnt := 3, lastCh := 2 })))
    = [some (.diag 23), some (.diag 20), some (.diag 4), some (.diag 1), some (.diag 3), some (.diag 2)] := by decide
/-- Y6: a reset in the middle of a pop. -/
theorem test_reset : after (exec .reset (at_ (waiting .copied))) = some fresh := by decide
/-- P5, lines 9 to 12: one iteration of the main loop. -/
theorem test_loop_iter : (loopIter Config.hw 0 { fresh with
      slot := [(0, ev 0 100), (1, ev 3 102)], head := 2, headC := 2, acc := #v[1, 0, 0, 0], encActivity := true }).toOption.map
      (fun p => p.2.map Prod.snd) =
    some [.drained #v[1, 0, 0, 0] true, .event (ev 0 100), .event (ev 3 102), .status .empty] := by decide

/-! ### Witnesses: values that meet all hypotheses of a statement together -/

/-- The waiting block satisfies the invariant in each phase. -/
theorem waiting_inv (p : PopPhase) : (waiting p).Inv Config.hw := by
  cases p <;> constructor <;> decide

theorem full_inv : full.Inv Config.hw := by constructor <;> decide

theorem witness_DecodeReadsBackEveryEncodedOperation :
    (Instr.btnEdge 3 .released .pressed 4294967295).wf = true ∧ (Instr.push 0 .release 0).wf = true := by decide
theorem witness_DecodedOperationHasExactlyItsWord :
    decode 0x2CFFFFFFFF#40 = .ok (.btnEdge 3 .released .released 4294967295) := by decide
theorem witness_DecoderFollowsTheOpcodeMap :
    decode 0x3A00000007#40 = .ok (.push 2 .press 7) ∧ rowOf (.push 0 .release 0) ∈ opTable ∧
    0x3A00000007#40 &&& (rowOf (.push 0 .release 0)).mask = (rowOf (.push 0 .release 0)).matchBits := by decide
theorem witness_StepRunsTheDecodedOperation :
    (State.reset.withFetchWord 40 0x1200000000).stream = 0x1200000000#40 :: [] ∧
    decode 0x1200000000#40 = .ok (.encEdge 0 true false) ∧
    (after (exec (.encEdge 0 true false) State.reset)).isSome = true := by decide
theorem witness_StepRefusesAWordThatIsNoOperation :
    (State.reset.withFetchWord 40 0xFFFFFFFFFF).stream = 0xFFFFFFFFFF#40 :: [] ∧
    decode 0xFFFFFFFFFF#40 = .error .reservedBits := by decide
theorem witness_StepWaitsForAnOperation : State.reset.stream = [] := rfl
theorem witness_ResetSatisfiesTheInvariant : Config.hw.wf = true ∧ skewTable.wf = true ∧ twoSlots.wf = true := by decide
theorem witness_EveryOperationKeepsTheInvariant : Config.hw.wf = true ∧ (waiting .idle).Inv Config.hw ∧
    ((perform Config.hw 0 .pop (waiting .idle)).toOption.map Prod.snd) = some (.event (ev 0 10)) :=
  ⟨by decide, waiting_inv _, by decide⟩
theorem witness_EveryStepKeepsTheInvariant : ((at_ full).offerWord 0xB000000000#40).Inv ∧
    (after (step ((at_ full).offerWord 0xB000000000#40))).map (·.headC) = some 19 := ⟨full_inv, by decide⟩
theorem witness_NoOperationFaultsUnderTheInvariant : Config.hw.wf = true ∧ (waiting .copied).Inv Config.hw :=
  ⟨by decide, waiting_inv _⟩
theorem witness_EveryStepHasANextState : (at_ (waiting .haveEvent)).Inv := waiting_inv _
theorem witness_FieldsAreWrittenOnlyByTheirOwners :
    (after (exec (.push 1 .press 5) (at_ (waiting .haveEvent)))).isSome = true ∧
    mayWrite (.push 1 .press 5) 2 (.slot 1) = false ∧ mayWrite (.push 1 .press 5) 2 (.slot 2) = true ∧
    mayWrite (.push 1 .press 5) 2 .popLatch = false := by decide
theorem witness_RefusedOperationsChangeNothing :
    result (exec .drain (at_ (waiting .haveEvent))) = some (.refused .badPhase) ∧
    result (exec (.push 4 .press 5) (at_ fresh)) = some (.refused .badChannel) := by decide
theorem witness_BadPhaseExactlyWhenThePhaseForbids : phaseAllows .copied .size = false ∧ phaseAllows .idle .popRd = false ∧
    result (exec .popRd (at_ fresh)) = some (.refused .badPhase) := by decide
theorem witness_PhaseAfterAnOperation : result (exec .popChk (at_ (waiting .idle))) = some (.status .present) ∧
    (after (exec .popChk (at_ (waiting .idle)))).map (·.popPhase) = some .haveEvent := by decide
theorem witness_OutOfRangeChannelsAreRefused : Config.hw.nEnc ≤ 4 ∧ threeChannels.nEnc ≤ 3 ∧ Config.hw.nBtn ≤ 4 := by
  decide
theorem witness_BootAdmitsExactlyTheLegalConfigurations :
    twoSlots.wf = true ∧ ({ Config.hw with qsize := 3 } : Config).wf = false := by decide
theorem witness_EncEdgeCompletes : (3 : Nat) < 4 := by decide
theorem witness_EncEdgeStepsAndSaturates : Config.hw.wf = true ∧
    ((perform Config.hw 0 (.encEdge 0 false false) (turned 0b1110#4 2147483647)).toOption.map Prod.snd) =
      some (.stepped 0b1000#4 1) ∧
    ((perform Config.hw 0 (.encEdge 3 false true) fresh).toOption.map Prod.snd) = some (.stepped 0b0001#4 0) := by decide
theorem witness_RepeatedSampleCountsNothing : Config.hw.wf = true ∧
    ((turned 0b1110#4 5).hist[0]'(by decide)).extractLsb' 0 2 = sample true false := by decide
theorem witness_SkippedCodeCountsNothing : Config.hw.wf = true ∧
    ((turned 0b1110#4 5).hist[0]'(by decide)).extractLsb' 0 2 = ~~~ sample false true := by decide
theorem witness_LegalTablesHaveOneEntryEachWay : ttWF skewTable.tt = true ∧ ttSym skewTable.tt = false := by decide
theorem witness_ClosedWalkCountsWholeTurns : ttWF defaultTable = true ∧ ttSym defaultTable = true ∧
    ([0b00#2, 0b10#2, 0b00#2, 0b01#2, 0b11#2, 0b10#2, 0b00#2] : List Sample).getLast? = some 0b00#2 ∧
    (∀ h ∈ [0b0010#4, 0b1000#4, 0b0001#4, 0b0111#4, 0b1110#4, 0b1000#4],
      History.classOf h = .forward ∨ History.classOf h = .reverse) := by decide
theorem witness_EncoderChannelsAreIndependent : (0 : Nat) ≠ 1 ∧
    results Config.hw [.encEdge 0 true false, .encEdge 1 false true] = some [.stepped 2#4 (-1), .stepped 1#4 0] ∧
    results Config.hw [.encEdge 1 false true, .encEdge 0 true false] = some [.stepped 1#4 0, .stepped 2#4 (-1)] := by
  decide
theorem witness_TicksAreDeliveredExactlyOnce : Config.hw.wf = true ∧ Instr.reset ∉ [Instr.encEdge 0 true false, .drain] ∧
    (runOps Config.hw 0 [.encEdge 0 true false, .drain] fresh).toOption.map (·.2) =
      some [(.encEdge 0 true false, .stepped 2#4 (-1)), (.drain, .drained #v[-1, 0, 0, 0] true)] ∧
    Trace.unsaturated (σ := Config.hw.toShape) 0 0
      [(.encEdge 0 true false, .stepped 2#4 (-1)), (.drain, .drained #v[-1, 0, 0, 0] true)] :=
  ⟨by decide, by decide, by decide, by decide, by decide, by decide, by decide, trivial⟩
theorem witness_BtnEdgeInsideTheWindowIsIgnored : ((armed .pressed).btsv[1]'(by decide)) = true ∧
    (BitVec.ofNat 32 49 - (armed .pressed).bts[1]'(by decide)).toNat < 50 := by decide
theorem witness_BtnEdgeWhilePressedChangesNothing :
    ¬ ((armed .pressed).btsv[1]'(by decide) = true ∧
      (BitVec.ofNat 32 50 - (armed .pressed).bts[1]'(by decide)).toNat < 50) ∧
    (armed .pressed).blevel[1]'(by decide) = .pressed := by decide
theorem witness_BtnEdgeGlitchChangesNothing :
    ¬ ((armed .released).btsv[1]'(by decide) = true ∧
      (BitVec.ofNat 32 50 - (armed .released).bts[1]'(by decide)).toNat < 50) ∧
    (armed .released).blevel[1]'(by decide) = .released := by decide
theorem witness_BtnEdgeReleaseWritesTheLevelOnly :
    ¬ ((armed .pressed).btsv[1]'(by decide) = true ∧
      (BitVec.ofNat 32 60 - (armed .pressed).bts[1]'(by decide)).toNat < 50) := by decide
theorem witness_BtnEdgeAcceptedIsQueued :
    ¬ ((armed .released).btsv[1]'(by decide) = true ∧
      (BitVec.ofNat 32 65 - (armed .released).bts[1]'(by decide)).toNat < 50) ∧
    (armed .released).blevel[1]'(by decide) = .released ∧ (armed .released).head < 20 ∧
    ((armed .released).head + 1) % 20 ≠ (armed .released).tailP := by decide
theorem witness_BtnEdgeAcceptedButDropped :
    ¬ (full.btsv[0]'(by decide) = true ∧ (BitVec.ofNat 32 100 - full.bts[0]'(by decide)).toNat < 50) ∧
    full.blevel[0]'(by decide) = .released ∧ (full.head + 1) % 20 = full.tailP := by decide
theorem witness_AcceptedPressesAreAWindowApart :
    ((perform Config.hw 0 (.btnEdge 1 .pressed .pressed 50) (armed .released)).toOption.map Prod.snd) =
      some (.status .accepted) ∧ ((armed .released).btsv[1]'(by decide)) = true := by decide
theorem witness_BtnEdgeQueuesPressesOnly :
    ((perform Config.hw 0 (.btnEdge 1 .pressed .pressed 65) (armed .released)).toOption.map
      fun p => Memory.read p.1.slot 0) = some (some (ev 1 65)) ∧
    Memory.read (armed .released).slot 0 = none := by decide
theorem witness_ReSampleIsADontCareOffThePressPath : (armed .pressed).blevel[1]'(by decide) = .pressed ∧
    ((armed .pressed).btsv[1]'(by decide) = true ∧
      (clockOf Config.hw 49 - (armed .pressed).bts[1]'(by decide)).toNat < Config.hw.debounce) := by decide
theorem witness_PushStoresAndPublishes : (3 : Nat) < 4 ∧ (waiting .idle).head < 20 ∧
    ((waiting .idle).head + 1) % 20 ≠ (waiting .idle).tailP := by decide
theorem witness_PushIntoAFullQueueDropsTheEvent : (3 : Nat) < 4 ∧ (full.head + 1) % 20 = full.tailP := by decide
theorem witness_PopChkCompletes : fresh.popPhase = .idle ∧ fresh.headC = fresh.tail ∧
    (waiting .idle).popPhase = .idle ∧ (waiting .idle).headC ≠ (waiting .idle).tail := by decide
theorem witness_PopRdCompletes : (waiting .haveEvent).popPhase = .haveEvent ∧ (waiting .haveEvent).tail < 20 ∧
    Memory.read (waiting .haveEvent).slot (waiting .haveEvent).tail = some (ev 0 10) := by decide
theorem witness_PopPubCompletes : (waiting .copied).popPhase = .copied ∧
    (waiting .copied).popLatch = some (ev 0 10) := by decide
theorem witness_PopCompletes : (waiting .idle).headC ≠ (waiting .idle).tail ∧ (waiting .idle).tail < 20 ∧
    Memory.read (waiting .idle).slot (waiting .idle).tail = some (ev 0 10) ∧ fresh.headC = fresh.tail := by decide
theorem witness_PopIsItsThreeSteps :
    (runOps Config.hw 0 [.popChk, .popRd, .popPub] (waiting .idle)).toOption.map (·.2) =
      some [(.popChk, .status .present), (.popRd, .status .ok), (.popPub, .event (ev 0 10))] ∧
    (perform Config.hw 0 .pop (waiting .idle)).toOption.map (·.2) = some (.event (ev 0 10)) ∧
    (perform Config.hw 0 .popChk fresh).toOption.map (·.2) = some (.status .empty) := by decide
theorem witness_SizeCompletes : (at_ (waiting .idle)).block.popPhase = .idle ∧ (at_ (waiting .idle)).Inv :=
  ⟨rfl, waiting_inv _⟩
theorem witness_SyncStepsComplete : sameClock.cdc = .sameDomain := rfl
theorem witness_QueueIsFirstInFirstOut : Config.hw.wf = true ∧ (waiting .idle).Inv Config.hw ∧
    Instr.reset ∉ [Instr.push 2 .press 12, .syncH, .pop, .pop, .pop] ∧
    (runOps Config.hw 0 [.push 2 .press 12, .syncH, .pop, .pop, .pop] (waiting .idle)).toOption.map
      (fun p => Trace.popped p.2) = some [some (ev 0 10), some (ev 1 11), some (ev 2 12)] :=
  ⟨by decide, waiting_inv _, by decide, by decide⟩
theorem witness_OccupancyViewsAreOrdered : Config.hw.wf = true ∧ full.Inv Config.hw ∧ full.isFull Config.hw = true ∧
    full.isEmpty Config.hw = true ∧ sameClock.wf = true ∧ (Block.reset sameClock.toShape).occ sameClock = 0 :=
  ⟨by decide, full_inv, by decide, by decide, by decide, by decide⟩
theorem witness_CountersAgreeWithTheQueue : Config.hw.wf = true ∧ (waiting .copied).Inv Config.hw ∧
    Config.hw.qsize - 1 < 2 ^ Config.hw.diagW ∧ (waiting .copied).popsCounted ∧
    ((perform Config.hw 0 .popPub (waiting .copied)).toOption.map fun p =>
      (p.1.popAtt.toNat, p.1.popOk.toNat, p.1.pushOk.toNat, p.1.head, p.1.tail)) = some (2, 1, 2, 2, 1) ∧
    (waiting .copied).popAtt.toNat ≤ 2 :=
  ⟨by decide, waiting_inv _, by decide, by unfold Block.popsCounted; decide, by decide, by decide⟩
/-- At the largest POP_ATT a POP wraps it, which the third identity excludes. -/
theorem test_pop_attempts_wrap : (after (exec .pop (at_ { fresh with popAtt := 0xFFFFFFFF }))).map (·.popAtt) = some 0 := by
  decide
theorem witness_PresentAndFullAreNeverUnfounded : Config.hw.wf = true ∧ (waiting .idle).Inv Config.hw ∧
    (perform Config.hw 0 .popChk (waiting .idle)).toOption.map (·.2) = some (.status .present) ∧ full.Inv Config.hw ∧
    (perform Config.hw 0 (.push 3 .press 119) full).toOption.map (·.2) = some (.status .full) :=
  ⟨by decide, waiting_inv _, by decide, full_inv, by decide⟩
theorem witness_PopInFlightIsUndisturbed : Config.hw.wf = true ∧ (waiting .copied).Inv Config.hw ∧
    (waiting .copied).popPhase ≠ .idle ∧ contextOf (.push 1 .press 5) = some .int ∧ contextOf .syncT = some .sync ∧
    (perform Config.hw 0 (.push 1 .press 5) (waiting .copied)).toOption.map (·.2) = some (.status .ok) :=
  ⟨by decide, waiting_inv _, by decide, rfl, rfl, by decide⟩
/-- A drained queue, away from the reset position. -/
def drained : B := { fresh with slot := [(0, ev 0 10)], head := 1, tail := 1, headC := 1, pushAtt := 1, pushOk := 1, popAtt := 1, popOk := 1 }
theorem witness_PushedEventsArePoppedInOrder : Config.hw.wf = true ∧ drained.Inv Config.hw ∧ drained.popPhase = .idle ∧
    drained.occ Config.hw = 0 ∧
    (runOps Config.hw 0 [.push 3 .press 1, .push 0 .release 2] drained).toOption.map (·.2) =
      some [(.push 3 .press 1, .status .ok), (.push 0 .release 2, .status .ok)] :=
  ⟨by decide, by constructor <;> decide, by decide, by decide, by decide⟩
theorem witness_GlimpsedWordIsOldOrNew : Config.hw.wf = true ∧ 19 < Config.hw.qsize ∧ nextIndex Config.hw 19 = 0 := by
  decide
theorem witness_WiresCarryTheIndex : Config.hw.wf = true ∧ Config.hw.cdc = .graySync ∧ full.head < Config.hw.qsize ∧
    full.tail < Config.hw.qsize := by decide
theorem witness_SameDomainIsGraySyncWithoutLag :
    results sameClock [.push 1 .press 5, .pop] =
      some [.status .ok, .event { ch := 1, kind := .press, ts := 5 }] := by decide
theorem witness_DrainCompletes : (at_ (turned 0b1000#4 7)).block.popPhase = .idle := rfl
theorem witness_DrainWithoutActivityReturnsZeros : (at_ (waiting .idle)).Inv ∧
    result (exec .drain (at_ (waiting .idle))) = some (.drained #v[0, 0, 0, 0] false) := ⟨waiting_inv _, by decide⟩
theorem witness_RddiagCompletes : (at_ full).block.popPhase = .idle := rfl
theorem witness_RelaxedDiagnosticsReads : looseDiag.diagAtomic = false ∧
    (Block.reset looseDiag.toShape).popPhase = .idle ∧ looseDiag.chW ≤ looseDiag.diagW := by decide

end Sys2Proof.Tests
end

section
/-! PROOFS. The invariant of every reachable state (10_state R45 to R48): kept by each named update of the record, so by
every operation and by every step; and the counter identities of R48, read off it. -/

namespace Sys2Proof.Machine

/-! ### Distances around the ring -/

section Ring

variable {c : Config} {x y z : Nat}

/-- A distance around the ring, as the integers have it. -/
theorem ringSub_cast (hq : 0 < c.qsize) : (ringSub c x y : Int) = ((x : Int) - y) % c.qsize :=
  Int.toNat_of_nonneg (Int.emod_nonneg _ (by omega))

/-- Going the distance from `y` to `x` on from `y` leads to `x`. -/
theorem ringAdd_ringSub (hx : x < c.qsize) (hy : y < c.qsize) : (y + ringSub c x y) % c.qsize = x := by
  rw [ringAdd_eq hy (ringSub_lt x y (by omega)), ringSub_eq hx hy]
  split_ifs <;> omega

/-- Indices at the same distance are the same. -/
theorem ringSub_left_inj (hx : x < c.qsize) (hy : y < c.qsize) (hz : z < c.qsize) :
    ringSub c x z = ringSub c y z ↔ x = y :=
  ⟨fun h => by rw [← ringAdd_ringSub hx hz, h, ringAdd_ringSub hy hz], fun h => by rw [h]⟩

/-- Distances add up where `y` is met on the way from `z` to `x`. -/
theorem ringSub_add_ringSub (hx : x < c.qsize) (hy : y < c.qsize) (hz : z < c.qsize)
    (h : ringSub c y z ≤ ringSub c x z) : ringSub c x y + ringSub c y z = ringSub c x z := by
  rw [ringSub_eq hy hz, ringSub_eq hx hz] at h ⊢
  rw [ringSub_eq hx hy]
  split_ifs at h ⊢ <;> omega

/-- `y` comes right after `x` exactly where going on from `y` to `x` is a whole round less one. -/
theorem nextIndex_eq_iff (hx : x < c.qsize) (hy : y < c.qsize) : nextIndex c x = y ↔ ringSub c x y + 1 = c.qsize := by
  rw [nextIndex_eq hx, ringSub_eq hx hy]
  split_ifs <;> omega

/-- One step further on is at a distance one greater, short of a whole round. -/
theorem ringSub_nextIndex_left (hx : x < c.qsize) (hy : y < c.qsize) (h : ringSub c x y + 1 < c.qsize) :
    ringSub c (nextIndex c x) y = ringSub c x y + 1 := by
  rw [ringSub_eq hx hy] at h ⊢
  rw [ringSub_eq (nextIndex_lt x (by omega)) hy, nextIndex_eq hx]
  split_ifs at h ⊢ <;> omega

/-- From one step further on the distance is one less. -/
theorem ringSub_nextIndex_right (hx : x < c.qsize) (hy : y < c.qsize) (h : x ≠ y) :
    ringSub c x (nextIndex c y) + 1 = ringSub c x y := by
  rw [ringSub_eq hx (nextIndex_lt y (by omega)), ringSub_eq hx hy, nextIndex_eq hy]
  split_ifs <;> omega

end Ring

variable {c : Config} {b b' : Block c.toShape} {r : Result c.toShape}

/-! ### The views of an index that moves -/

/-- A push that publishes leaves what the consumer sees of HEAD, or the consumer sees the new HEAD (R67). -/
theorem Block.published_headSeen_cases (m : Memory c.toShape) :
    (b.published c m).headSeen c = b.headSeen c ∨ (b.published c m).headSeen c = nextIndex c b.head := by
  cases h : c.cdc <;> simp [Block.headSeen, Block.published, h]

/-- A pop leaves what the producers see of TAIL, or the producers see the new TAIL (R67). -/
theorem Block.consumed_tailSeen_cases :
    (b.consumed c).tailSeen c = b.tailSeen c ∨ (b.consumed c).tailSeen c = nextIndex c b.tail := by
  cases h : c.cdc <;> simp [Block.tailSeen, Block.consumed, h]

/-- The consumer's test for empty fails where it sees HEAD away from TAIL (R141). -/
theorem Block.isEmpty_eq_false : b.isEmpty c = false ↔ b.headSeen c ≠ b.tail := by simp [Block.isEmpty]

/-! ### What the invariant says of the ring (R46, R141) -/

namespace Block.Inv

theorem qsize_pos (h : b.Inv c) : 0 < c.qsize := Nat.zero_lt_of_lt h.head_lt

theorem headSeen_lt (h : b.Inv c) : b.headSeen c < c.qsize := by
  unfold Block.headSeen
  split
  · exact h.headC_lt
  · exact h.head_lt

theorem tailSeen_lt (h : b.Inv c) : b.tailSeen c < c.qsize := by
  unfold Block.tailSeen
  split
  · exact h.tailP_lt
  · exact h.tail_lt

/-- The occupancy and the lag of the producers' view of TAIL make up the occupancy the producers see. -/
theorem occ_add_lag (h : b.Inv c) : b.occ c + ringSub c b.tail (b.tailSeen c) = b.occP c :=
  ringSub_add_ringSub h.head_lt h.tail_lt h.tailSeen_lt (h.order_tail.trans h.order_head)

/-- The consumer never sees more events than there are. -/
theorem occC_le_occ (h : b.Inv c) : b.occC c ≤ b.occ c := by
  have hseen : b.occC c + _ = _ := ringSub_add_ringSub h.headSeen_lt h.tail_lt h.tailSeen_lt h.order_tail
  have htrue : b.occ c + _ = ringSub c b.head (b.tailSeen c) := h.occ_add_lag
  have := h.order_head
  omega

/-- An event the consumer sees lies strictly between TAIL and its view of HEAD. -/
theorem tail_before_headSeen (h : b.Inv c) (hne : b.headSeen c ≠ b.tail) :
    ringSub c b.tail (b.tailSeen c) < ringSub c (b.headSeen c) (b.tailSeen c) :=
  lt_of_le_of_ne h.order_tail fun heq =>
    hne ((ringSub_left_inj h.tail_lt h.headSeen_lt h.tailSeen_lt).mp heq).symm

/-- An event the consumer sees is there. -/
theorem head_ne_tail (h : b.Inv c) (hne : b.headSeen c ≠ b.tail) : b.head ≠ b.tail := fun heq => by
  have hlt := h.tail_before_headSeen hne
  have hle := h.order_head
  rw [heq] at hle
  omega

/-- Where the producers' test for full fails they see a free slot beside the one that stays unused. -/
theorem occP_add_one_lt (h : b.Inv c) (hf : b.isFull c = false) : b.occP c + 1 < c.qsize := by
  have hne : nextIndex c b.head ≠ b.tailSeen c := by simpa [Block.isFull] using hf
  rw [Ne, nextIndex_eq_iff h.head_lt h.tailSeen_lt] at hne
  have hlt : b.occP c < c.qsize := ringSub_lt _ _ h.qsize_pos
  exact lt_of_le_of_ne hlt hne

/-- So there is room between HEAD and TAIL itself. -/
theorem occ_add_one_lt (h : b.Inv c) (hf : b.isFull c = false) : b.occ c + 1 < c.qsize := by
  have := h.occ_add_lag
  have := h.occP_add_one_lt hf
  omega

/-- A push that finds room adds one to the occupancy. -/
theorem published_occ (h : b.Inv c) (hf : b.isFull c = false) (m : Memory c.toShape) :
    (b.published c m).occ c = b.occ c + 1 :=
  ringSub_nextIndex_left h.head_lt h.tail_lt (h.occ_add_one_lt hf)

/-- A pop of an event that is there takes one from the occupancy. -/
theorem consumed_occ (h : b.Inv c) (hne : b.headSeen c ≠ b.tail) : (b.consumed c).occ c + 1 = b.occ c :=
  ringSub_nextIndex_right h.head_lt h.tail_lt (h.head_ne_tail hne)

/-! ### Each named update keeps the invariant

A clause that is not mentioned reads only fields the update leaves. -/

/-- The block after RESET satisfies it (R220). -/
theorem reset (hc : c.Legal) : (Block.reset c.toShape).Inv c := by
  have hq : 0 < c.qsize := by have := hc.qsize_two_le; omega
  have hhead : (Block.reset c.toShape).headSeen c = 0 := by cases h : c.cdc <;> simp [Block.headSeen, Block.reset, h]
  have htail : (Block.reset c.toShape).tailSeen c = 0 := by cases h : c.cdc <;> simp [Block.tailSeen, Block.reset, h]
  have hocc : (Block.reset c.toShape).occ c = 0 := ringSub_self 0
  exact {
    head_lt := hq
    tail_lt := hq
    headC_lt := hq
    tailP_lt := hq
    lastCh_lt := by simpa [Block.reset] using Nat.lt_of_succ_le hc.nBtn_pos
    order_tail := by rw [hhead, htail]; exact le_rfl
    order_head := by rw [hhead, htail]; exact le_rfl
    slot_wf := Memory.wf_reset _
    live_written := fun k hk => by rw [hocc] at hk; exact absurd hk (Nat.not_lt_zero k)
    pending := fun hp => absurd rfl hp
    latched := nofun
    push_count := by simp [Block.reset]
    pop_count := by rw [hocc]; simp [Block.reset]
    quiet := fun _ e => by simp [Block.reset]
    unarmed := fun n _ => by simp [Block.reset] }

/-- ENC_EDGE's writes: a step that is zero changes no accumulator, any other sets the activity flag. -/
theorem decoded (h : b.Inv c) (e : Fin c.nEnc) (hist : History) (d : Int) : (b.decoded c e hist d).Inv c :=
  { h with
    quiet := fun hact => by
      obtain ⟨hquiet, hd⟩ : b.encActivity = false ∧ d = 0 := by simpa [activityAfter] using hact
      simpa [hd] using h.quiet hquiet }

/-- DRAIN's writes. -/
theorem cleared (h : b.Inv c) : (b.cleared c).Inv c :=
  { h with quiet := fun _ e => by simp }

/-- An accepted press sets the valid bit of its channel, so the channel is no longer unarmed. -/
theorem pressedAt (h : b.Inv c) (n : Fin c.nBtn) (now : BitVec c.tsW) : (b.pressedAt c n now).Inv c :=
  { h with
    unarmed := fun k hk => by
      by_cases hkn : n = k
      · subst hkn; simp at hk
      · have hval : n.val ≠ k.val := fun heq => hkn (Fin.ext heq)
        simpa [Vector.getElem_set_ne _ _ hval] using h.unarmed k (by simpa [Vector.getElem_set_ne _ _ hval] using hk) }

/-- A release writes the level of reset. -/
theorem releasedAt (h : b.Inv c) (n : Fin c.nBtn) : (b.releasedAt c n).Inv c :=
  { h with
    unarmed := fun k hk => by
      obtain ⟨hlevel, hts⟩ := h.unarmed k hk
      refine ⟨?_, hts⟩
      by_cases hkn : n = k
      · subst hkn; simp
      · have hval : n.val ≠ k.val := fun heq => hkn (Fin.ext heq)
        simpa [Vector.getElem_set_ne _ _ hval] using hlevel }

/-- A push that finds the queue full counts an attempt and a drop. -/
theorem attempted_dropped (h : b.Inv c) {ch : BitVec c.chW} (hch : ch.toNat < c.nBtn) :
    ((b.attempted c ch).dropped c).Inv c :=
  { h with
    lastCh_lt := hch
    push_count := by
      change b.pushAtt + 1 = b.pushOk + (b.dropCnt + 1)
      rw [h.push_count, add_assoc] }

/-- After a push that publishes, the slots from TAIL to the new HEAD are written: the last one just now. -/
theorem live_written_push (h : b.Inv c) (ev : Event c.toShape) :
    ∀ k < b.occ c + 1, Memory.read (Memory.write b.slot b.head ev) ((b.tail + k) % c.qsize) ≠ none := by
  intro k hk
  rw [Memory.read_write]
  split
  · simp
  · next hne =>
    have : k ≠ b.occ c := fun heq => hne (heq ▸ ringAdd_ringSub h.head_lt h.tail_lt)
    exact h.live_written k (by omega)

/-- After a push that publishes, the indices are in the cyclic order of R46. -/
theorem order_push (h : b.Inv c) (hf : b.isFull c = false) (m : Memory c.toShape) :
    ringSub c b.tail (b.tailSeen c) ≤ ringSub c ((b.published c m).headSeen c) (b.tailSeen c) ∧
    ringSub c ((b.published c m).headSeen c) (b.tailSeen c) ≤ ringSub c (nextIndex c b.head) (b.tailSeen c) := by
  have hnext : ringSub c (nextIndex c b.head) (b.tailSeen c) = ringSub c b.head (b.tailSeen c) + 1 :=
    ringSub_nextIndex_left h.head_lt h.tailSeen_lt (h.occP_add_one_lt hf)
  have htail := h.order_tail
  have hhead := h.order_head
  rcases Block.published_headSeen_cases (b := b) m with hseen | hseen <;> rw [hseen] <;> omega

/-- A push that finds room writes the slot at HEAD, which no pop in flight reads, and publishes it. -/
theorem attempted_published (h : b.Inv c) {ch : BitVec c.chW} (hch : ch.toNat < c.nBtn) (hf : b.isFull c = false)
    (ev : Event c.toShape) : ((b.attempted c ch).published c (Memory.write b.slot b.head ev)).Inv c := by
  obtain ⟨horder_tail, horder_head⟩ := h.order_push hf (Memory.write b.slot b.head ev)
  have hocc : ((b.attempted c ch).published c (Memory.write b.slot b.head ev)).occ c = b.occ c + 1 :=
    h.published_occ hf (Memory.write b.slot b.head ev)
  exact { h with
    head_lt := nextIndex_lt _ h.qsize_pos
    lastCh_lt := hch
    order_tail := horder_tail
    order_head := horder_head
    slot_wf := Memory.wf_write ev h.head_lt h.slot_wf
    live_written := fun k hk => h.live_written_push ev k (hocc ▸ hk)
    pending := fun hp => by
      rcases Block.published_headSeen_cases (b := b.attempted c ch) (Memory.write b.slot b.head ev) with hseen | hseen <;>
        rw [hseen]
      · exact h.pending hp
      · have := h.occ_add_one_lt hf
        exact fun heq => this.ne ((nextIndex_eq_iff h.head_lt h.tail_lt).mp heq)
    latched := fun hp => by
      have hne : b.tail ≠ b.head := (h.head_ne_tail (h.pending (hp ▸ nofun))).symm
      change _ ∧ b.popLatch = Memory.read (Memory.write b.slot b.head ev) b.tail
      rw [Memory.read_write_other _ _ hne]
      exact h.latched hp
    push_count := by
      change b.pushAtt + 1 = b.pushOk + 1 + b.dropCnt
      rw [h.push_count, add_right_comm]
    pop_count := by
      change b.pushOk + 1 - b.popOk = _
      rw [hocc, BitVec.ofNat_add, ← h.pop_count, sub_add_eq_add_sub]; rfl }

/-- A pop attempt counted. -/
theorem popTried (h : b.Inv c) : (b.popTried c).Inv c := { h with }

/-- A phase may be entered that the queue and the latch are ready for. -/
theorem inPhase (h : b.Inv c) {p : PopPhase} (hpending : p ≠ .idle → b.headSeen c ≠ b.tail)
    (hlatched : p = .copied → b.popLatch ≠ none ∧ b.popLatch = Memory.read b.slot b.tail) : (b.inPhase c p).Inv c :=
  { h with pending := hpending, latched := hlatched }

/-- The record at TAIL may be copied into the latch in any phase. -/
theorem latchedAt (h : b.Inv c) {ev : Event c.toShape} (hev : Memory.read b.slot b.tail = some ev) :
    (b.latched c ev).Inv c :=
  { h with latched := fun _ => ⟨nofun, hev.symm⟩ }

/-- After a pop of an event that is there, the slots from the new TAIL to HEAD are written. -/
theorem live_written_pop (h : b.Inv c) (hne : b.headSeen c ≠ b.tail) :
    ∀ k < (b.consumed c).occ c, Memory.read b.slot ((nextIndex c b.tail + k) % c.qsize) ≠ none := by
  intro k hk
  have hocc := h.consumed_occ hne
  have hindex : (nextIndex c b.tail + k) % c.qsize = (b.tail + (k + 1)) % c.qsize := by
    rw [nextIndex, Nat.mod_add_mod, add_right_comm, add_assoc]
  rw [hindex]
  exact h.live_written (k + 1) (by omega)

/-- After a pop of an event that is there, the indices are in the cyclic order of R46. -/
theorem order_pop (h : b.Inv c) (hne : b.headSeen c ≠ b.tail) :
    ringSub c (nextIndex c b.tail) ((b.consumed c).tailSeen c) ≤ ringSub c (b.headSeen c) ((b.consumed c).tailSeen c) ∧
    ringSub c (b.headSeen c) ((b.consumed c).tailSeen c) ≤ ringSub c b.head ((b.consumed c).tailSeen c) := by
  rcases Block.consumed_tailSeen_cases (b := b) with hseen | hseen <;> rw [hseen]
  · have hlt := h.tail_before_headSeen hne
    have hround : ringSub c (b.headSeen c) (b.tailSeen c) < c.qsize := ringSub_lt _ _ h.qsize_pos
    rw [ringSub_nextIndex_left h.tail_lt h.tailSeen_lt (by omega)]
    exact ⟨hlt, h.order_head⟩
  · have hview := ringSub_nextIndex_right h.headSeen_lt h.tail_lt hne
    have htrue := ringSub_nextIndex_right h.head_lt h.tail_lt (h.head_ne_tail hne)
    have hle : ringSub c (b.headSeen c) b.tail ≤ ringSub c b.head b.tail := h.occC_le_occ
    rw [ringSub_self]
    omega

/-- With no pop in flight TAIL may advance over an event the consumer sees. -/
theorem consumed (h : b.Inv c) (hp : b.popPhase = .idle) (hne : b.headSeen c ≠ b.tail) : (b.consumed c).Inv c := by
  obtain ⟨horder_tail, horder_head⟩ := h.order_pop hne
  exact { h with
    tail_lt := nextIndex_lt _ h.qsize_pos
    order_tail := horder_tail
    order_head := horder_head
    live_written := h.live_written_pop hne
    pending := fun hn => absurd hp hn
    latched := fun hcopied => absurd (hp.symm.trans hcopied) nofun
    pop_count := by
      have hcount : b.pushOk - b.popOk = BitVec.ofNat c.diagW ((b.consumed c).occ c) + 1 := by
        rw [h.pop_count, ← h.consumed_occ hne, BitVec.ofNat_add]; rfl
      change b.pushOk - (b.popOk + 1) = _
      rw [sub_add_eq_sub_sub, hcount, add_sub_cancel_right] }

/-- SYNC_H's write: the consumer's view of HEAD moves up to HEAD. -/
theorem headCopied (h : b.Inv c) : (b.headCopied c).Inv c :=
  { h with
    headC_lt := by
      rw [Block.headCopied_headC]
      split
      · exact h.head_lt
      · exact h.headC_lt
    order_tail := by
      rw [Block.headCopied_headSeen]
      exact h.order_tail.trans h.order_head
    order_head := by
      rw [Block.headCopied_headSeen]
      exact le_rfl
    pending := fun hp => by
      rw [Block.headCopied_headSeen]
      exact h.head_ne_tail (h.pending hp) }

/-- SYNC_T's write: the producers' view of TAIL moves up to TAIL. -/
theorem tailCopied (h : b.Inv c) : (b.tailCopied c).Inv c :=
  { h with
    tailP_lt := by
      rw [Block.tailCopied_tailP]
      split
      · exact h.tail_lt
      · exact h.tailP_lt
    order_tail := by
      rw [Block.tailCopied_tailSeen, Block.tailCopied_tail, ringSub_self]
      exact Nat.zero_le _
    order_head := by
      rw [Block.tailCopied_tailSeen]
      exact h.occC_le_occ }

end Block.Inv

/-! ### Each operation keeps the invariant -/

/-- A button channel number survives the narrowing to CH_W bits (R10, R44). -/
theorem wrap_channel_lt (hc : c.Legal) (n : Fin c.nBtn) : (wrap c.chW n).toNat < c.nBtn := by
  have hn := n.isLt
  rwa [wrap, BitVec.toNat_ofNat, Nat.mod_eq_of_lt (hn.trans_le hc.nBtn_le)]

theorem Block.encEdge_inv {e : Nat} {a p : Bool} (hi : b.Inv c) (h : b.encEdge c e a p = .ok (b', r)) : b'.Inv c := by
  rcases Block.encEdge_ok.mp h with ⟨-, rfl, -⟩ | ⟨ch, -, rfl, -⟩
  · exact hi
  · exact hi.decoded ch _ _

theorem Block.push_inv {k : Nat} {kind : Kind} {ts : Nat} (hc : c.Legal) (hi : b.Inv c)
    (h : b.push c k kind ts = .ok (b', r)) : b'.Inv c := by
  rcases Block.push_ok.mp h with ⟨-, rfl, -⟩ | ⟨n, -, ⟨-, rfl, -⟩ | ⟨hf, -, rfl, -⟩⟩
  · exact hi
  · exact hi.attempted_dropped (wrap_channel_lt hc n)
  · exact hi.attempted_published (wrap_channel_lt hc n) hf _

theorem Block.acceptPress_inv {n : Fin c.nBtn} {now : BitVec c.tsW} (hc : c.Legal) (hi : b.Inv c)
    (h : b.acceptPress c n now = .ok (b', r)) : b'.Inv c := by
  rcases Block.acceptPress_ok.mp h with ⟨-, rfl, -⟩ | ⟨hf, -, rfl, -⟩
  · exact (hi.attempted_dropped (wrap_channel_lt hc n)).pressedAt n now
  · exact (hi.attempted_published (wrap_channel_lt hc n) hf _).pressedAt n now

theorem Block.btnEdge_inv {k : Nat} {lvl rs : Level} {now : Nat} (hc : c.Legal) (hi : b.Inv c)
    (h : b.btnEdge c k lvl rs now = .ok (b', r)) : b'.Inv c := by
  rcases Block.btnEdge_ok.mp h with ⟨-, rfl, -⟩ | ⟨n, -, ⟨-, rfl, -⟩ | ⟨-, hpath⟩⟩
  · exact hi
  · exact hi
  · rcases hpath with ⟨-, rfl, -⟩ | ⟨-, -, rfl, -⟩ | ⟨-, -, -, rfl, -⟩ | ⟨-, -, -, haccept⟩
    · exact hi.releasedAt n
    · exact hi
    · exact hi
    · exact Block.acceptPress_inv hc hi haccept

theorem Block.drain_inv (hi : b.Inv c) (h : b.drain c = .ok (b', r)) : b'.Inv c := by
  rcases Block.drain_ok.mp h with ⟨-, rfl, -⟩ | ⟨-, rfl, -⟩
  · exact hi
  · exact hi.cleared

theorem Block.popChk_inv (hi : b.Inv c) (h : b.popChk c = .ok (b', r)) : b'.Inv c := by
  rcases Block.popChk_ok.mp h with ⟨-, rfl, -⟩ | ⟨-, -, rfl, -⟩ | ⟨-, he, rfl, -⟩
  · exact hi
  · exact hi.popTried
  · exact hi.popTried.inPhase (fun _ => Block.isEmpty_eq_false.mp he) nofun

theorem Block.popRd_inv (hi : b.Inv c) (h : b.popRd c = .ok (b', r)) : b'.Inv c := by
  rcases Block.popRd_ok.mp h with ⟨-, rfl, -⟩ | ⟨hp, -, ev, hev, rfl, -⟩
  · exact hi
  · exact (hi.latchedAt hev).inPhase (fun _ => hi.pending (hp ▸ nofun)) fun _ => ⟨nofun, hev.symm⟩

theorem Block.popPub_inv (hi : b.Inv c) (h : b.popPub c = .ok (b', r)) : b'.Inv c := by
  rcases Block.popPub_ok.mp h with ⟨-, rfl, -⟩ | ⟨hp, ev, -, rfl, -⟩
  · exact hi
  · have hidle : (b.inPhase c .idle).Inv c := hi.inPhase (fun hn => absurd rfl hn) nofun
    exact hidle.consumed rfl (hi.pending (hp ▸ nofun))

theorem Block.pop_inv (hi : b.Inv c) (h : b.pop c = .ok (b', r)) : b'.Inv c := by
  rcases Block.pop_ok.mp h with ⟨-, rfl, -⟩ | ⟨-, -, rfl, -⟩ | ⟨hp, he, -, ev, hev, rfl, -⟩
  · exact hi
  · exact hi.popTried
  · exact (hi.popTried.latchedAt hev).consumed hp (Block.isEmpty_eq_false.mp he)

theorem Block.size_inv (hi : b.Inv c) (h : b.size c = .ok (b', r)) : b'.Inv c := by
  obtain ⟨rfl, -⟩ := Block.size_ok.mp h
  exact hi

theorem Block.rddiag_inv {n : Nat} {k : DiagReg} (hi : b.Inv c) (h : b.rddiag c n k = .ok (b', r)) : b'.Inv c := by
  obtain ⟨rfl, -⟩ := Block.rddiag_ok.mp h
  exact hi

theorem Block.syncH_inv (hi : b.Inv c) (h : b.syncH c = .ok (b', r)) : b'.Inv c := by
  obtain ⟨rfl, -⟩ := Block.syncH_ok.mp h
  exact hi.headCopied

theorem Block.syncT_inv (hi : b.Inv c) (h : b.syncT c = .ok (b', r)) : b'.Inv c := by
  obtain ⟨rfl, -⟩ := Block.syncT_ok.mp h
  exact hi.tailCopied

theorem Block.toReset_inv (hc : c.Legal) (h : b.toReset c = .ok (b', r)) : b'.Inv c := by
  obtain ⟨rfl, -⟩ := Block.toReset_ok.mp h
  exact Block.Inv.reset hc

/-- Every transition of the block, over any legal configuration. -/
theorem perform_inv {n : Nat} {i : Instr} (hc : c.Legal) (hi : b.Inv c) (h : perform c n i b = .ok (b', r)) :
    b'.Inv c := by
  cases i with
  | encEdge e a p => exact Block.encEdge_inv hi h
  | btnEdge k lvl rs now => exact Block.btnEdge_inv hc hi h
  | push k kind ts => exact Block.push_inv hc hi h
  | drain => exact Block.drain_inv hi h
  | popChk => exact Block.popChk_inv hi h
  | popRd => exact Block.popRd_inv hi h
  | popPub => exact Block.popPub_inv hi h
  | pop => exact Block.pop_inv hi h
  | size => exact Block.size_inv hi h
  | rddiag0 | rddiag1 | rddiag2 | rddiag3 | rddiag4 | rddiag5 => exact Block.rddiag_inv hi h
  | syncH => exact Block.syncH_inv hi h
  | syncT => exact Block.syncT_inv hi h
  | reset => exact Block.toReset_inv (b := b) hc h

/-- This hardware is a legal configuration (R8, R10). -/
theorem hw_legal : Config.hw.Legal := Config.legal_of_wf (by decide)

/-- Every operation of the machine. -/
theorem exec_inv {i : Instr} {s t : State} (hi : s.Inv) (h : exec i s = .next t) : t.Inv := by
  obtain ⟨b, r, hperform, rfl⟩ := exec_next.mp h
  exact perform_inv hw_legal hi hperform

/-- Settles O11: every operation is a composition of named updates of the record, each of which keeps the invariant. -/
theorem everyOperationKeepsTheInvariant : Obligations.EveryOperationKeepsTheInvariant :=
  fun _ hwf _ _ _ _ _ hi h => perform_inv (Config.legal_of_wf hwf) hi h

/-- Settles O12: a step waits, refuses its word with the block as it was, or runs an operation. -/
theorem everyStepKeepsTheInvariant : Obligations.EveryStepKeepsTheInvariant := by
  intro s t hi h
  rcases step_next.mp h with ⟨-, rfl⟩ | ⟨w, rest, -, ⟨reason, -, rfl⟩ | ⟨i, -, hexec⟩⟩
  · exact hi
  · exact hi
  · exact exec_inv (s := s.advanced rest) hi hexec

/-! ### The counter identities (R48) -/

/-- A difference of counters is the difference of their values, modulo their range. -/
theorem toNat_sub_cast {w : Nat} (x y : BitVec w) : ((x - y).toNat : Int) = ((x.toNat : Int) - y.toNat) % 2 ^ w := by
  have hy := y.isLt
  rw [BitVec.toNat_sub, Int.natCast_mod, Nat.cast_add, Nat.cast_sub hy.le, Nat.cast_pow, Nat.cast_two,
    show (2 : Int) ^ w - y.toNat + x.toNat = x.toNat - y.toNat + 2 ^ w by ring, Int.add_emod_right]

/-- A counter below another one does not wrap when it is counted up. -/
theorem toNat_add_one_of_lt {w : Nat} {x y : BitVec w} (h : x.toNat < y.toNat) : (x + 1).toNat = x.toNat + 1 := by
  have hlt : x.toNat + 1 < 2 ^ w := Nat.lt_of_le_of_lt h y.isLt
  have hone : (1 : BitVec w).toNat = 1 := Nat.mod_eq_of_lt (Nat.lt_of_le_of_lt (Nat.le_add_left 1 _) hlt)
  rw [BitVec.toNat_add, hone, Nat.mod_eq_of_lt hlt]

/-- A counter that is not less after it is counted up did not wrap. -/
theorem toNat_add_one_of_le {w : Nat} (hw : 1 ≤ w) {x : BitVec w} (h : x.toNat ≤ (x + 1).toNat) :
    (x + 1).toNat = x.toNat + 1 := by
  refine toNat_add_one_of_lt (lt_of_le_of_ne h fun heq => ?_)
  have hzero : (1 : BitVec w) = 0 := by simpa using BitVec.eq_of_toNat_eq heq
  have hpow : 2 ^ 1 ≤ 2 ^ w := Nat.pow_le_pow_right two_pos hw
  have : 1 % 2 ^ w = 0 := by simpa using congrArg BitVec.toNat hzero
  rw [Nat.mod_eq_of_lt (by omega)] at this
  exact one_ne_zero this

/-- With no pop in flight the second identity is POP_OK at most POP_ATT. -/
theorem Block.popsCounted_of_idle {σ : Shape} {b : Block σ} (hp : b.popPhase = .idle) :
    b.popsCounted ↔ b.popOk.toNat ≤ b.popAtt.toNat := by simp [Block.popsCounted, hp]

/-- With a pop in flight it is POP_OK below POP_ATT. -/
theorem Block.popsCounted_of_inFlight {σ : Shape} {b : Block σ} (hp : b.popPhase ≠ .idle) :
    b.popsCounted ↔ b.popOk.toNat < b.popAtt.toNat := by simp [Block.popsCounted, hp]

/-- In every phase POP_OK is at most POP_ATT. -/
theorem Block.popOk_le_popAtt {σ : Shape} {b : Block σ} (h : b.popsCounted) : b.popOk.toNat ≤ b.popAtt.toNat := by
  unfold Block.popsCounted at h
  omega

theorem Block.reset_popsCounted (σ : Shape) : (Block.reset σ).popsCounted := by
  simp [Block.popsCounted, Block.reset]

/-- An operation that R42 does not let write POP_ATT leaves the phase and both pop counters. -/
theorem perform_pop_frame {n : Nat} {i : Instr} (hi : mayWrite i b.head .popAtt = false)
    (h : perform c n i b = .ok (b', r)) :
    b'.popPhase = b.popPhase ∧ b'.popAtt = b.popAtt ∧ b'.popOk = b.popOk := by
  cases i with
  | encEdge e a p => rcases Block.encEdge_ok.mp h with ⟨-, rfl, -⟩ | ⟨ch, -, rfl, -⟩ <;> exact ⟨rfl, rfl, rfl⟩
  | btnEdge k lvl rs now =>
    rcases Block.btnEdge_ok.mp h with ⟨-, rfl, -⟩ | ⟨m, -, ⟨-, rfl, -⟩ | ⟨-, hpath⟩⟩
    · exact ⟨rfl, rfl, rfl⟩
    · exact ⟨rfl, rfl, rfl⟩
    · rcases hpath with ⟨-, rfl, -⟩ | ⟨-, -, rfl, -⟩ | ⟨-, -, -, rfl, -⟩ | ⟨-, -, -, haccept⟩
      · exact ⟨rfl, rfl, rfl⟩
      · exact ⟨rfl, rfl, rfl⟩
      · exact ⟨rfl, rfl, rfl⟩
      · rcases Block.acceptPress_ok.mp haccept with ⟨-, rfl, -⟩ | ⟨-, -, rfl, -⟩ <;> exact ⟨rfl, rfl, rfl⟩
  | push k kind ts =>
    rcases Block.push_ok.mp h with ⟨-, rfl, -⟩ | ⟨m, -, ⟨-, rfl, -⟩ | ⟨-, -, rfl, -⟩⟩ <;> exact ⟨rfl, rfl, rfl⟩
  | drain => rcases Block.drain_ok.mp h with ⟨-, rfl, -⟩ | ⟨-, rfl, -⟩ <;> exact ⟨rfl, rfl, rfl⟩
  | size => obtain ⟨rfl, -⟩ := Block.size_ok.mp h; exact ⟨rfl, rfl, rfl⟩
  | rddiag0 | rddiag1 | rddiag2 | rddiag3 | rddiag4 | rddiag5 =>
    obtain ⟨rfl, -⟩ := Block.rddiag_ok.mp h; exact ⟨rfl, rfl, rfl⟩
  | syncH => obtain ⟨rfl, -⟩ := Block.syncH_ok.mp h; exact ⟨rfl, rfl, rfl⟩
  | syncT => obtain ⟨rfl, -⟩ := Block.syncT_ok.mp h; exact ⟨rfl, rfl, rfl⟩
  | popChk | popRd | popPub | pop | reset => cases hi

/-- An attempt counted without a wrap puts POP_ATT above POP_OK. -/
theorem Block.popOk_lt_popTried_popAtt (hc : c.Legal) (hb : b.popsCounted)
    (hnowrap : b.popAtt.toNat ≤ (b.popTried c).popAtt.toNat) : b.popOk.toNat < (b.popTried c).popAtt.toNat := by
  rw [Block.popTried_popAtt] at hnowrap ⊢
  rw [toNat_add_one_of_le hc.diagW_pos hnowrap]
  exact Nat.lt_succ_of_le (Block.popOk_le_popAtt hb)

/-- POP.CHK counts the attempt that a pop it puts in flight stands for. -/
theorem Block.popChk_popsCounted (hc : c.Legal) (hb : b.popsCounted) (hnowrap : b.popAtt.toNat ≤ b'.popAtt.toNat)
    (h : b.popChk c = .ok (b', r)) : b'.popsCounted := by
  rcases Block.popChk_ok.mp h with ⟨-, rfl, -⟩ | ⟨hp, -, rfl, -⟩ | ⟨-, -, rfl, -⟩
  · exact hb
  · exact (Block.popsCounted_of_idle (b := b.popTried c) hp).mpr (Block.popOk_lt_popTried_popAtt hc hb hnowrap).le
  · exact (Block.popsCounted_of_inFlight (b := (b.popTried c).inPhase c .haveEvent) nofun).mpr
      (Block.popOk_lt_popTried_popAtt hc hb hnowrap)

/-- POP.RD leaves the pop in flight. -/
theorem Block.popRd_popsCounted (hb : b.popsCounted) (h : b.popRd c = .ok (b', r)) : b'.popsCounted := by
  rcases Block.popRd_ok.mp h with ⟨-, rfl, -⟩ | ⟨hp, -, ev, -, rfl, -⟩
  · exact hb
  · exact (Block.popsCounted_of_inFlight (b := (b.latched c ev).inPhase c .copied) nofun).mpr
      ((Block.popsCounted_of_inFlight (b := b) (hp ▸ nofun)).mp hb)

/-- POP.PUB counts the success of a pop whose attempt is counted, so POP_OK cannot wrap before POP_ATT. -/
theorem Block.popPub_popsCounted (hb : b.popsCounted) (h : b.popPub c = .ok (b', r)) : b'.popsCounted := by
  rcases Block.popPub_ok.mp h with ⟨-, rfl, -⟩ | ⟨hp, ev, -, rfl, -⟩
  · exact hb
  · have hlt : b.popOk.toNat < b.popAtt.toNat := (Block.popsCounted_of_inFlight (hp ▸ nofun)).mp hb
    refine (Block.popsCounted_of_idle (b := (b.consumed c).inPhase c .idle) rfl).mpr ?_
    rw [Block.inPhase_popOk, Block.consumed_popOk, toNat_add_one_of_lt hlt]
    exact hlt

/-- POP counts an attempt, and a success with it where there is an event. -/
theorem Block.pop_popsCounted (hc : c.Legal) (hb : b.popsCounted) (hnowrap : b.popAtt.toNat ≤ b'.popAtt.toNat)
    (h : b.pop c = .ok (b', r)) : b'.popsCounted := by
  rcases Block.pop_ok.mp h with ⟨-, rfl, -⟩ | ⟨hp, -, rfl, -⟩ | ⟨hp, -, -, ev, -, rfl, -⟩
  · exact hb
  · exact (Block.popsCounted_of_idle (b := b.popTried c) hp).mpr (Block.popOk_lt_popTried_popAtt hc hb hnowrap).le
  · have hlt : b.popOk.toNat < (b.popTried c).popAtt.toNat := Block.popOk_lt_popTried_popAtt hc hb hnowrap
    refine (Block.popsCounted_of_idle (b := ((b.popTried c).latched c ev).consumed c) hp).mpr ?_
    rw [Block.consumed_popOk, Block.latched_popOk, Block.popTried_popOk, toNat_add_one_of_lt hlt]
    exact hlt

/-- The second identity of R48 is kept by RESET and by every operation that does not wrap POP_ATT. -/
theorem perform_popsCounted {n : Nat} {i : Instr} (hc : c.Legal) (hb : b.popsCounted)
    (hnowrap : i = .reset ∨ b.popAtt.toNat ≤ b'.popAtt.toNat) (h : perform c n i b = .ok (b', r)) : b'.popsCounted := by
  cases i with
  | reset =>
    obtain ⟨rfl, -⟩ := (Block.toReset_ok (b := b)).mp h
    exact Block.reset_popsCounted _
  | popChk => exact Block.popChk_popsCounted hc hb (hnowrap.resolve_left nofun) h
  | popRd => exact Block.popRd_popsCounted hb h
  | popPub => exact Block.popPub_popsCounted hb h
  | pop => exact Block.pop_popsCounted hc hb (hnowrap.resolve_left nofun) h
  | _ =>
    obtain ⟨hphase, hatt, hok⟩ := perform_pop_frame rfl h
    rwa [Block.popsCounted, hphase, hatt, hok]

/-- The first identity of R48, in the values of the counters. -/
theorem Block.Inv.pushAtt_toNat (h : b.Inv c) :
    b.pushAtt.toNat = (b.pushOk.toNat + b.dropCnt.toNat) % 2 ^ c.diagW := by
  rw [h.push_count, BitVec.toNat_add]

/-- The third identity of R48, in the values of the counters: a counter wide enough holds every occupancy. -/
theorem Block.Inv.pushOk_sub_popOk (h : b.Inv c) (hw : c.qsize - 1 < 2 ^ c.diagW) :
    ((b.pushOk.toNat : Int) - b.popOk.toNat) % 2 ^ c.diagW = ((b.head : Int) - b.tail) % c.qsize := by
  have hocc : b.occ c < c.qsize := ringSub_lt _ _ h.qsize_pos
  calc ((b.pushOk.toNat : Int) - b.popOk.toNat) % 2 ^ c.diagW
      = ((b.pushOk - b.popOk).toNat : Int) := (toNat_sub_cast _ _).symm
    _ = (b.occ c : Int) := by
      rw [h.pop_count, BitVec.toNat_ofNat, Nat.mod_eq_of_lt (by omega)]
    _ = ((b.head : Int) - b.tail) % c.qsize := ringSub_cast h.qsize_pos

/-- Settles O49: the identities of the push counters and of the occupancy are read off the invariant, which every
operation keeps; the one of the pop counters has a step lemma of its own. -/
theorem countersAgreeWithTheQueue : Obligations.CountersAgreeWithTheQueue := by
  refine ⟨fun c hwf n i b b' r hi h => ?_, fun σ => ⟨Block.reset_popsCounted σ, ?_, rfl, rfl⟩⟩
  · have hc := Config.legal_of_wf hwf
    have hi' := perform_inv hc hi h
    refine ⟨hi'.pushAtt_toNat, hi'.pushOk_sub_popOk, fun hb hnowrap => ?_⟩
    have hb' := perform_popsCounted hc hb hnowrap h
    exact ⟨hb', Block.popOk_le_popAtt hb'⟩
  · simp [Block.reset]

end Sys2Proof.Machine
end

section
/-! PROOFS. Delivery: no tick is lost or duplicated between the edges and DRAIN (20_memory R70), and every event is
popped once, in the order of the pushes (20_memory R61). Each is a balance that one operation keeps, added up over a
run. -/

namespace Sys2Proof.Machine

variable {c : Config} {b b' : Block c.toShape} {r : Result c.toShape}

/-! ### Ticks (R70) -/

section Ticks

variable {e : Fin c.nEnc}

/-- A saturating sum that stays in range is the sum (R104). -/
theorem toInt_satAdd {w : Nat} (hw : 0 < w) {x : BitVec w} {d : Int} (hlo : -(2 ^ (w - 1)) ≤ x.toInt + d)
    (hhi : x.toInt + d ≤ 2 ^ (w - 1) - 1) : (satAdd x d).toInt = x.toInt + d := by
  rw [satAdd, sat, max_eq_left hlo, min_eq_left hhi]
  exact BitVec.toInt_ofInt_eq_self hw hlo (by omega)

/-- ENC_EDGE's writes add the step to the accumulator of its channel, where that does not saturate. -/
theorem Block.decoded_acc_toInt (hw : 0 < c.accW) (hist : History) {d : Int}
    (hlo : -(2 ^ (c.accW - 1)) ≤ b.acc[e].toInt + d) (hhi : b.acc[e].toInt + d ≤ 2 ^ (c.accW - 1) - 1) :
    (b.decoded c e hist d).acc[e].toInt = b.acc[e].toInt + d := by
  by_cases hd : d = 0
  · simp [hd]
  · simpa [hd] using toInt_satAdd hw hlo hhi

/-- They leave the accumulator of every other channel. -/
theorem Block.decoded_acc_other {e' : Fin c.nEnc} (hne : e'.val ≠ e.val) (hist : History) (d : Int) :
    (b.decoded c e' hist d).acc[e] = b.acc[e] := by
  by_cases hd : d = 0
  · simp [hd]
  · simp [hd, Vector.getElem_set_ne _ _ hne]

/-- An unsaturated ENC_EDGE adds the step it returns to its own accumulator. -/
theorem Block.encEdge_ticks {k : Nat} {a p : Bool} (hw : 0 < c.accW)
    (hlo : -(2 ^ (c.accW - 1)) ≤ b.acc[e].toInt + steppedBy e.val (.encEdge k a p) r)
    (hhi : b.acc[e].toInt + steppedBy e.val (.encEdge k a p) r ≤ 2 ^ (c.accW - 1) - 1)
    (h : b.encEdge c k a p = .ok (b', r)) :
    drainedBy e r + b'.acc[e].toInt = b.acc[e].toInt + steppedBy e.val (.encEdge k a p) r := by
  rcases Block.encEdge_ok.mp h with ⟨-, rfl, rfl⟩ | ⟨ch, rfl, rfl, rfl⟩
  · simp [drainedBy, steppedBy]
  · by_cases hch : ch.val = e.val
    · obtain rfl := Fin.ext hch
      simp only [steppedBy, if_true, drainedBy, zero_add] at hlo hhi ⊢
      exact Block.decoded_acc_toInt hw _ hlo hhi
    · simp only [steppedBy, hch, if_false, drainedBy, zero_add, add_zero, Block.decoded_acc_other hch]

/-- DRAIN returns what it clears (R170). -/
theorem Block.drain_ticks (h : b.drain c = .ok (b', r)) : drainedBy e r + b'.acc[e].toInt = b.acc[e].toInt := by
  rcases Block.drain_ok.mp h with ⟨-, rfl, rfl⟩ | ⟨-, rfl, rfl⟩ <;> simp [drainedBy]

/-- An operation that R42 does not let write ENC_ACTIVITY leaves every accumulator, and neither steps nor drains. -/
theorem perform_acc_frame {n : Nat} {i : Instr} (hi : mayWrite i b.head .encActivity = false)
    (h : perform c n i b = .ok (b', r)) : b'.acc = b.acc ∧ steppedBy e.val i r = 0 ∧ drainedBy e r = 0 := by
  cases i with
  | btnEdge k lvl rs now =>
    rcases Block.btnEdge_ok.mp h with ⟨-, rfl, rfl⟩ | ⟨m, -, ⟨-, rfl, rfl⟩ | ⟨-, hpath⟩⟩
    · exact ⟨rfl, rfl, rfl⟩
    · exact ⟨rfl, rfl, rfl⟩
    · rcases hpath with ⟨-, rfl, rfl⟩ | ⟨-, -, rfl, rfl⟩ | ⟨-, -, -, rfl, rfl⟩ | ⟨-, -, -, haccept⟩
      · exact ⟨rfl, rfl, rfl⟩
      · exact ⟨rfl, rfl, rfl⟩
      · exact ⟨rfl, rfl, rfl⟩
      · rcases Block.acceptPress_ok.mp haccept with ⟨-, rfl, rfl⟩ | ⟨-, -, rfl, rfl⟩ <;> exact ⟨rfl, rfl, rfl⟩
  | push k kind ts =>
    rcases Block.push_ok.mp h with ⟨-, rfl, rfl⟩ | ⟨m, -, ⟨-, rfl, rfl⟩ | ⟨-, -, rfl, rfl⟩⟩ <;> exact ⟨rfl, rfl, rfl⟩
  | popChk =>
    rcases Block.popChk_ok.mp h with ⟨-, rfl, rfl⟩ | ⟨-, -, rfl, rfl⟩ | ⟨-, -, rfl, rfl⟩ <;> exact ⟨rfl, rfl, rfl⟩
  | popRd => rcases Block.popRd_ok.mp h with ⟨-, rfl, rfl⟩ | ⟨-, -, ev, -, rfl, rfl⟩ <;> exact ⟨rfl, rfl, rfl⟩
  | popPub => rcases Block.popPub_ok.mp h with ⟨-, rfl, rfl⟩ | ⟨-, ev, -, rfl, rfl⟩ <;> exact ⟨rfl, rfl, rfl⟩
  | pop =>
    rcases Block.pop_ok.mp h with ⟨-, rfl, rfl⟩ | ⟨-, -, rfl, rfl⟩ | ⟨-, -, -, ev, -, rfl, rfl⟩ <;>
      exact ⟨rfl, rfl, rfl⟩
  | size => obtain ⟨rfl, ⟨-, rfl⟩ | ⟨-, rfl⟩⟩ := Block.size_ok.mp h <;> exact ⟨rfl, rfl, rfl⟩
  | rddiag0 | rddiag1 | rddiag2 | rddiag3 | rddiag4 | rddiag5 =>
    obtain ⟨rfl, ⟨-, rfl⟩ | ⟨-, rfl⟩⟩ := Block.rddiag_ok.mp h <;> exact ⟨rfl, rfl, rfl⟩
  | syncH => obtain ⟨rfl, rfl⟩ := Block.syncH_ok.mp h; exact ⟨rfl, rfl, rfl⟩
  | syncT => obtain ⟨rfl, rfl⟩ := Block.syncT_ok.mp h; exact ⟨rfl, rfl, rfl⟩
  | encEdge | drain | reset => cases hi

/-- Every unsaturated operation but RESET keeps the balance of a channel: drained and left is what was there and what
was stepped. -/
theorem perform_ticks (hc : c.Legal) {n : Nat} {i : Instr} (hi : i ≠ .reset)
    (hlo : -(2 ^ (c.accW - 1)) ≤ b.acc[e].toInt + steppedBy e.val i r)
    (hhi : b.acc[e].toInt + steppedBy e.val i r ≤ 2 ^ (c.accW - 1) - 1) (h : perform c n i b = .ok (b', r)) :
    drainedBy e r + b'.acc[e].toInt = b.acc[e].toInt + steppedBy e.val i r := by
  cases i with
  | encEdge k a p => exact Block.encEdge_ticks (Nat.zero_lt_of_lt hc.accW_two_le) hlo hhi h
  | drain => exact (Block.drain_ticks h).trans (add_zero _).symm
  | reset => exact absurd rfl hi
  | _ =>
    obtain ⟨hacc, hstep, hdrain⟩ := perform_acc_frame (e := e) rfl h
    rw [hacc, hstep, hdrain, zero_add, add_zero]

theorem Trace.drained_cons {σ : Shape} (e : Fin σ.nEnc) (i : Instr) (r : Result σ) (t : Trace σ) :
    Trace.drained e ((i, r) :: t) = drainedBy e r + Trace.drained e t := by simp [Trace.drained]

theorem Trace.stepped_cons {σ : Shape} (e : Nat) (i : Instr) (r : Result σ) (t : Trace σ) :
    Trace.stepped e ((i, r) :: t) = steppedBy e i r + Trace.stepped e t := by simp [Trace.stepped]

/-- The balance over a run. After each operation the accumulator is the partial sum that Trace.unsaturated bounds. -/
theorem runOps_ticks (hc : c.Legal) {n : Nat} {ops : List Instr} {t : Trace c.toShape} (hreset : Instr.reset ∉ ops)
    (h : runOps c n ops b = .ok (b', t)) (hunsat : Trace.unsaturated e b.acc[e].toInt t) :
    Trace.drained e t + b'.acc[e].toInt = b.acc[e].toInt + Trace.stepped e.val t := by
  induction ops generalizing n b t with
  | nil =>
    obtain ⟨rfl, rfl⟩ := runOps_nil.mp h
    simp [Trace.drained, Trace.stepped]
  | cons i rest ih =>
    obtain ⟨b₁, r, t', hfirst, hrest, rfl⟩ := runOps_cons.mp h
    obtain ⟨hlo, hhi, hunsat'⟩ := hunsat
    have hstep := perform_ticks hc (List.ne_of_not_mem_cons hreset).symm hlo hhi hfirst
    have hpartial : b.acc[e].toInt + steppedBy e.val i r - drainedBy e r = b₁.acc[e].toInt := by omega
    have hrun := ih (List.not_mem_of_not_mem_cons hreset) hrest (hpartial ▸ hunsat')
    rw [Trace.drained_cons, Trace.stepped_cons]
    omega

end Ticks

/-- Settles O28: one operation keeps the balance of the channel, and the balances of a run add up. -/
theorem ticksAreDeliveredExactlyOnce : Obligations.TicksAreDeliveredExactlyOnce :=
  fun _ hwf _ _ _ _ _ _ hreset h hunsat => runOps_ticks (Config.legal_of_wf hwf) hreset h hunsat

/-! ### Events (R61) -/

namespace Block.Inv

/-- An event published is the youngest live one: the slot at HEAD is none of those that were live. -/
theorem published_live (h : b.Inv c) (hf : b.isFull c = false) (ev : Event c.toShape) :
    (b.published c (Memory.write b.slot b.head ev)).live c = b.live c ++ [some ev] := by
  have hhead : (b.tail + b.occ c) % c.qsize = b.head := ringAdd_ringSub h.head_lt h.tail_lt
  have hroom := h.occ_add_one_lt hf
  have hread : ∀ k ∈ List.range (b.occ c), Memory.read (Memory.write b.slot b.head ev) ((b.tail + k) % c.qsize) =
      Memory.read b.slot ((b.tail + k) % c.qsize) := fun k hk => by
    have hlt : k < b.occ c := List.mem_range.mp hk
    refine Memory.read_write_other _ _ fun heq => hlt.ne ?_
    exact (Nat.ModEq.add_left_cancel' b.tail (heq.trans hhead.symm)).eq_of_lt_of_lt (by omega) (by omega)
  rw [Block.live, h.published_occ hf, List.range_succ, List.map_append, Block.published_slot, Block.published_tail,
    List.map_congr_left hread, List.map_singleton, hhead, Memory.read_write_same]
  rfl

/-- The event at TAIL is the oldest live one, and the others are those live once TAIL is past it. -/
theorem live_eq_cons (h : b.Inv c) (hne : b.headSeen c ≠ b.tail) :
    b.live c = Memory.read b.slot b.tail :: (b.consumed c).live c := by
  have hindex : ∀ k, (b.tail + (k + 1)) % c.qsize = (nextIndex c b.tail + k) % c.qsize := fun k => by
    rw [nextIndex, Nat.mod_add_mod, add_right_comm, add_assoc]
  rw [Block.live, ← h.consumed_occ hne, List.range_succ_eq_map, List.map_cons, List.map_map, add_zero,
    Nat.mod_eq_of_lt h.tail_lt]
  simp only [Block.live, Function.comp_def, Nat.succ_eq_add_one, hindex, Block.consumed_slot, Block.consumed_tail]

/-- The slot of every live event is written (R47). -/
theorem live_ne_none (h : b.Inv c) : ∀ ev ∈ b.live c, ev ≠ none := by
  intro ev hev
  obtain ⟨k, hk, rfl⟩ := List.mem_map.mp hev
  exact h.live_written k (List.mem_range.mp hk)

/-- At most QSIZE - 1 events are live (R141). -/
theorem length_live_le (h : b.Inv c) : (b.live c).length ≤ c.qsize - 1 := by
  have hocc : b.occ c < c.qsize := ringSub_lt _ _ h.qsize_pos
  rw [Block.live, List.length_map, List.length_range]
  omega

end Block.Inv

/-- PUSH appends its event to the live ones where it returns OK, and nothing where it does not. -/
theorem Block.push_events {k : Nat} {kind : Kind} {ts : Nat} (hi : b.Inv c) (h : b.push c k kind ts = .ok (b', r)) :
    b'.live c = b.live c ++ pushedBy c (.push k kind ts) r := by
  rcases Block.push_ok.mp h with ⟨-, rfl, rfl⟩ | ⟨n, rfl, ⟨-, rfl, rfl⟩ | ⟨hf, -, rfl, rfl⟩⟩
  · exact (List.append_nil _).symm
  · exact (List.append_nil _).symm
  · exact hi.published_live hf _

/-- An accepted press appends its event to the live ones where it returns ACCEPTED, and nothing where it does not. -/
theorem Block.acceptPress_events {n : Fin c.nBtn} {lvl rs : Level} {now : Nat} (hi : b.Inv c)
    (h : b.acceptPress c n (clockOf c now) = .ok (b', r)) :
    b'.live c = b.live c ++ pushedBy c (.btnEdge n lvl rs now) r := by
  rcases Block.acceptPress_ok.mp h with ⟨-, rfl, rfl⟩ | ⟨hf, -, rfl, rfl⟩
  · exact (List.append_nil _).symm
  · exact hi.published_live hf _

/-- BTN_EDGE appends its press to the live events where it returns ACCEPTED, and nothing on its other paths. -/
theorem Block.btnEdge_events {k : Nat} {lvl rs : Level} {now : Nat} (hi : b.Inv c)
    (h : b.btnEdge c k lvl rs now = .ok (b', r)) :
    b'.live c = b.live c ++ pushedBy c (.btnEdge k lvl rs now) r := by
  rcases Block.btnEdge_ok.mp h with ⟨-, rfl, rfl⟩ | ⟨n, rfl, ⟨-, rfl, rfl⟩ | ⟨-, hpath⟩⟩
  · exact (List.append_nil _).symm
  · exact (List.append_nil _).symm
  · rcases hpath with ⟨-, rfl, rfl⟩ | ⟨-, -, rfl, rfl⟩ | ⟨-, -, -, rfl, rfl⟩ | ⟨-, -, -, haccept⟩
    · exact (List.append_nil _).symm
    · exact (List.append_nil _).symm
    · exact (List.append_nil _).symm
    · exact Block.acceptPress_events hi haccept

/-- POP.PUB takes the oldest live event, which the latch holds, and returns it. -/
theorem Block.popPub_events (hi : b.Inv c) (h : b.popPub c = .ok (b', r)) :
    b.live c = poppedBy .popPub r ++ b'.live c := by
  rcases Block.popPub_ok.mp h with ⟨-, rfl, rfl⟩ | ⟨hp, ev, hev, rfl, rfl⟩
  · rfl
  · obtain ⟨-, hlatch⟩ := hi.latched hp
    rw [hi.live_eq_cons (hi.pending (hp ▸ nofun)), ← hlatch, hev]
    rfl

/-- POP takes the oldest live event and returns it, where the consumer sees one. -/
theorem Block.pop_events (hi : b.Inv c) (h : b.pop c = .ok (b', r)) : b.live c = poppedBy .pop r ++ b'.live c := by
  rcases Block.pop_ok.mp h with ⟨-, rfl, rfl⟩ | ⟨-, -, rfl, rfl⟩ | ⟨-, he, -, ev, hev, rfl, rfl⟩
  · rfl
  · rfl
  · rw [hi.live_eq_cons (Block.isEmpty_eq_false.mp he), hev]
    rfl

/-- POP.CHK, the first step of a pop, leaves the live events. -/
theorem Block.popChk_live (h : b.popChk c = .ok (b', r)) : b'.live c = b.live c := by
  rcases Block.popChk_ok.mp h with ⟨-, rfl, -⟩ | ⟨-, -, rfl, -⟩ | ⟨-, -, rfl, -⟩ <;> rfl

/-- POP.RD, the second step, leaves them too: the event it copies stays live until TAIL is past it. -/
theorem Block.popRd_live (h : b.popRd c = .ok (b', r)) : b'.live c = b.live c := by
  rcases Block.popRd_ok.mp h with ⟨-, rfl, -⟩ | ⟨-, -, ev, -, rfl, -⟩ <;> rfl

/-- An operation that R42 lets write neither HEAD nor TAIL leaves the live events. -/
theorem perform_live_frame {n : Nat} {i : Instr} (hhead : mayWrite i b.head .head = false)
    (htail : mayWrite i b.head .tail = false) (h : perform c n i b = .ok (b', r)) : b'.live c = b.live c := by
  cases i with
  | encEdge e a p => rcases Block.encEdge_ok.mp h with ⟨-, rfl, -⟩ | ⟨ch, -, rfl, -⟩ <;> rfl
  | drain => rcases Block.drain_ok.mp h with ⟨-, rfl, -⟩ | ⟨-, rfl, -⟩ <;> rfl
  | size => obtain ⟨rfl, -⟩ := Block.size_ok.mp h; rfl
  | rddiag0 | rddiag1 | rddiag2 | rddiag3 | rddiag4 | rddiag5 => obtain ⟨rfl, -⟩ := Block.rddiag_ok.mp h; rfl
  | syncH => obtain ⟨rfl, -⟩ := Block.syncH_ok.mp h; rfl
  | syncT => obtain ⟨rfl, -⟩ := Block.syncT_ok.mp h; rfl
  | btnEdge | push | reset => cases hhead
  | popChk | popRd | popPub | pop => cases htail

/-- Every operation but RESET keeps the balance of the queue: the live events and the one pushed are the one popped
and the live events after it. -/
theorem perform_events {n : Nat} {i : Instr} (hi : b.Inv c) (hreset : i ≠ .reset) (h : perform c n i b = .ok (b', r)) :
    b.live c ++ pushedBy c i r = poppedBy i r ++ b'.live c := by
  cases i with
  | btnEdge k lvl rs now => exact (Block.btnEdge_events hi h).symm
  | push k kind ts => exact (Block.push_events hi h).symm
  | popPub => exact (List.append_nil _).trans (Block.popPub_events hi h)
  | pop => exact (List.append_nil _).trans (Block.pop_events hi h)
  | popChk => exact (List.append_nil _).trans (Block.popChk_live h).symm
  | popRd => exact (List.append_nil _).trans (Block.popRd_live h).symm
  | reset => exact absurd rfl hreset
  | _ => exact (List.append_nil _).trans (perform_live_frame rfl rfl h).symm

theorem Trace.pushed_cons (c : Config) (i : Instr) (r : Result c.toShape) (t : Trace c.toShape) :
    Trace.pushed c ((i, r) :: t) = pushedBy c i r ++ Trace.pushed c t := rfl

theorem Trace.popped_cons {σ : Shape} (i : Instr) (r : Result σ) (t : Trace σ) :
    Trace.popped ((i, r) :: t) = poppedBy i r ++ Trace.popped t := rfl

/-- The balance over a run. -/
theorem runOps_events (hc : c.Legal) {n : Nat} {ops : List Instr} {t : Trace c.toShape} (hi : b.Inv c)
    (hreset : Instr.reset ∉ ops) (h : runOps c n ops b = .ok (b', t)) :
    b.live c ++ Trace.pushed c t = Trace.popped t ++ b'.live c := by
  induction ops generalizing n b t with
  | nil =>
    obtain ⟨rfl, rfl⟩ := runOps_nil.mp h
    exact List.append_nil _
  | cons i rest ih =>
    obtain ⟨b₁, r, t', hfirst, hrest, rfl⟩ := runOps_cons.mp h
    have hne : i ≠ .reset := (List.ne_of_not_mem_cons hreset).symm
    calc b.live c ++ Trace.pushed c ((i, r) :: t')
        = (b.live c ++ pushedBy c i r) ++ Trace.pushed c t' := (List.append_assoc ..).symm
      _ = poppedBy i r ++ (b₁.live c ++ Trace.pushed c t') := by
        rw [perform_events hi hne hfirst, List.append_assoc]
      _ = poppedBy i r ++ (Trace.popped t' ++ b'.live c) := by
        rw [ih (perform_inv hc hi hfirst) (List.not_mem_of_not_mem_cons hreset) hrest]
      _ = Trace.popped ((i, r) :: t') ++ b'.live c := (List.append_assoc ..).symm

/-- Settles O47: a push appends at one end of the live events, a pop takes from the other, and the balances of a run
join up. -/
theorem queueIsFirstInFirstOut : Obligations.QueueIsFirstInFirstOut :=
  fun _ hwf _ _ _ _ _ hi hreset h =>
    ⟨runOps_events (Config.legal_of_wf hwf) hi hreset h, hi.live_ne_none, hi.length_live_le⟩

end Sys2Proof.Machine
end

section
/-! PROOFS. The quadrature decoder over any legal table, polarity and width (40_quadrature_decoder): the shape of a
legal transition table (R103, R106), the saturating sum (R104), and what ENC_EDGE does with a history that is no legal
step (R107, R108). -/

namespace Sys2Proof

/-! ### Classes of histories (R106) -/

theorem mem_histories (h : History) : h ∈ histories := by
  revert h
  decide

/-- The forward codes of the table of R106. -/
theorem classOf_eq_forward_iff {h : History} :
    History.classOf h = .forward ↔ h ∈ [0b0001#4, 0b0111#4, 0b1110#4, 0b1000#4] := by
  revert h
  decide

/-- The reverse codes of the table of R106. -/
theorem classOf_eq_reverse_iff {h : History} :
    History.classOf h = .reverse ↔ h ∈ [0b0010#4, 0b1011#4, 0b1101#4, 0b0100#4] := by
  revert h
  decide

/-- A sample seen twice is an identity code (R107). -/
theorem classOf_append_self (s : Sample) : History.classOf (s ++ s) = .identity := by
  revert s
  decide

/-- Both bits changed at once is an illegal code (R108). -/
theorem classOf_not_append_self (s : Sample) : History.classOf (~~~ s ++ s) = .illegal := by
  revert s
  decide

/-! ### The shape of a legal table (R103) -/

/-- The histories of one class. -/
def codesOf (k : HistoryClass) : List History := histories.filter fun h => decide (History.classOf h = k)

theorem entriesOf_eq_map (tt : Vector Int 16) (k : HistoryClass) : entriesOf tt k = (codesOf k).map (ttAt tt) := rfl

theorem mem_codesOf {k : HistoryClass} {h : History} : h ∈ codesOf k ↔ History.classOf h = k := by
  simp [codesOf, mem_histories]

theorem nodup_codesOf (k : HistoryClass) : (codesOf k).Nodup := List.Nodup.filter _ (by decide)

/-- R106 has four codes in each class. -/
theorem length_codesOf (k : HistoryClass) : (codesOf k).length = 4 := by
  cases k <;> decide

/-- Counting `v` once and 0 everywhere else picks out one place. -/
theorem counts_eq_single_iff {α : Type} [DecidableEq α] {g : α → Int} {v : Int} (hv : v ≠ 0) {l : List α}
    (hl : l.Nodup) :
    (l.map g).count v = 1 ∧ (l.map g).count 0 + 1 = l.length ↔ ∃ x ∈ l, ∀ y ∈ l, g y = if y = x then v else 0 := by
  constructor
  · rintro ⟨hone, hzero⟩
    obtain ⟨x, hx, rfl⟩ := List.mem_map.mp (List.count_pos_iff.mp (hone ▸ Nat.one_pos))
    have hrest : ∀ y ∈ l.erase x, g y = 0 := by
      have hcount : ((l.erase x).map g).count 0 = ((l.erase x).map g).length := by
        rw [((List.perm_cons_erase hx).map g).count_eq, List.map_cons, List.count_cons_of_ne hv] at hzero
        rw [List.length_map, List.length_erase_of_mem hx]
        omega
      exact fun y hy => (List.count_eq_length.mp hcount _ (List.mem_map_of_mem hy)).symm
    refine ⟨x, hx, fun y hy => ?_⟩
    split
    · next heq => rw [heq]
    · next hne => exact hrest y (hl.mem_erase_iff.mpr ⟨hne, hy⟩)
  · rintro ⟨x, hx, hg⟩
    have hrest : (l.erase x).map g = List.replicate (l.length - 1) 0 := by
      rw [← List.length_erase_of_mem hx, List.map_eq_replicate_iff]
      intro y hy
      obtain ⟨hne, hmem⟩ := hl.mem_erase_iff.mp hy
      rw [hg y hmem, if_neg hne]
    have hpos := List.length_pos_of_mem hx
    have hcount : ∀ a, (l.map g).count a = (v :: List.replicate (l.length - 1) 0).count a := fun a => by
      rw [((List.perm_cons_erase hx).map g).count_eq, List.map_cons, hrest, hg x hx, if_pos rfl]
    rw [hcount, hcount, List.count_cons_self, List.count_cons_of_ne hv, List.count_replicate_self,
      List.count_replicate, if_neg (by simpa using hv.symm)]
    omega

/-- A function of the history with one non-zero value at a forward and one at a reverse code, class by class. -/
theorem single_entries_iff {g : History → Int} {f r : History} (hf : History.classOf f = .forward)
    (hr : History.classOf r = .reverse) :
    (∀ h, g h = if h = f then 1 else if h = r then -1 else 0) ↔
      (∀ h, History.classOf h = .identity → g h = 0) ∧ (∀ h, History.classOf h = .illegal → g h = 0) ∧
      (∀ h, History.classOf h = .forward → g h = if h = f then 1 else 0) ∧
      (∀ h, History.classOf h = .reverse → g h = if h = r then -1 else 0) := by
  have hne_f : ∀ h, History.classOf h ≠ .forward → h ≠ f := fun h hk heq => hk (heq ▸ hf)
  have hne_r : ∀ h, History.classOf h ≠ .reverse → h ≠ r := fun h hk heq => hk (heq ▸ hr)
  constructor
  · intro hg
    refine ⟨fun h hk => ?_, fun h hk => ?_, fun h hk => ?_, fun h hk => ?_⟩
    · rw [hg, if_neg (hne_f h (hk ▸ nofun)), if_neg (hne_r h (hk ▸ nofun))]
    · rw [hg, if_neg (hne_f h (hk ▸ nofun)), if_neg (hne_r h (hk ▸ nofun))]
    · rw [hg, if_neg (hne_r h (hk ▸ nofun))]
    · rw [hg, if_neg (hne_f h (hk ▸ nofun))]
  · rintro ⟨hidentity, hillegal, hforward, hreverse⟩ h
    cases hk : History.classOf h with
    | identity => rw [hidentity h hk, if_neg (hne_f h (hk ▸ nofun)), if_neg (hne_r h (hk ▸ nofun))]
    | illegal => rw [hillegal h hk, if_neg (hne_f h (hk ▸ nofun)), if_neg (hne_r h (hk ▸ nofun))]
    | forward => rw [hforward h hk, if_neg (hne_r h (hk ▸ nofun))]
    | reverse => rw [hreverse h hk, if_neg (hne_f h (hk ▸ nofun))]

/-- TT_WF (R103): the table is +1 at one forward code, -1 at one reverse code and 0 elsewhere. -/
theorem ttWF_iff {tt : Vector Int 16} :
    ttWF tt = true ↔ ∃ f, History.classOf f = .forward ∧ ∃ r, History.classOf r = .reverse ∧
      ∀ h, ttAt tt h = if h = f then 1 else if h = r then -1 else 0 := by
  have hforward := counts_eq_single_iff (g := ttAt tt) (v := 1) (by decide) (nodup_codesOf .forward)
  have hreverse := counts_eq_single_iff (g := ttAt tt) (v := -1) (by decide) (nodup_codesOf .reverse)
  simp only [← entriesOf_eq_map, length_codesOf, mem_codesOf, Nat.reduceEqDiff] at hforward hreverse
  simp only [ttWF, Bool.and_eq_true, List.all_eq_true, beq_iff_eq, decide_eq_true_eq, and_assoc]
  rw [← and_assoc (a := List.count 1 _ = 1), hforward, hreverse]
  simp only [entriesOf_eq_map, List.forall_mem_map, mem_codesOf]
  constructor
  · rintro ⟨-, hidentity, hillegal, ⟨f, hf, hatf⟩, ⟨r, hr, hatr⟩⟩
    exact ⟨f, hf, r, hr, (single_entries_iff hf hr).mpr ⟨hidentity, hillegal, hatf, hatr⟩⟩
  · rintro ⟨f, hf, r, hr, hat⟩
    obtain ⟨hidentity, hillegal, hatf, hatr⟩ := (single_entries_iff hf hr).mp hat
    refine ⟨fun h _ => ?_, hidentity, hillegal, ⟨f, hf, hatf⟩, ⟨r, hr, hatr⟩⟩
    rw [hat]
    split_ifs <;> decide

/-- An entry of a legal table that is not 0 belongs to a legal step. -/
theorem ttAt_eq_zero {tt : Vector Int 16} (hwf : ttWF tt = true) {h : History}
    (hk : History.classOf h = .identity ∨ History.classOf h = .illegal) : ttAt tt h = 0 := by
  obtain ⟨f, hf, r, hr, hat⟩ := ttWF_iff.mp hwf
  obtain ⟨hidentity, hillegal, -, -⟩ := (single_entries_iff hf hr).mp hat
  exact hk.elim (hidentity h) (hillegal h)

/-- TT_SYM (R103 d) over every history. -/
theorem ttSym_iff {tt : Vector Int 16} :
    ttSym tt = true ↔ ∀ h, ttAt tt h = 1 → ttAt tt (History.swap h) = -1 := by
  simp only [ttSym, List.all_eq_true, decide_eq_true_eq, mem_histories, forall_const]

/-- Settles O25: the codes of each class written out. -/
theorem legalTablesHaveOneEntryEachWay : Obligations.LegalTablesHaveOneEntryEachWay := by
  refine ⟨by decide, fun tt => ⟨?_, fun _ => ttSym_iff⟩⟩
  simp only [ttWF_iff, classOf_eq_forward_iff, classOf_eq_reverse_iff]

end Sys2Proof

namespace Sys2Proof.Machine

variable {c : Config} {b b' : Block c.toShape}

/-! ### The saturating sum (R104) -/

/-- The saturating sum of an accumulator is the clamped sum over the integers, which its width holds. -/
theorem toInt_satAdd_eq_sat {w : Nat} (hw : 0 < w) (x : BitVec w) (d : Int) :
    (satAdd x d).toInt = sat w (x.toInt + d) := by
  have hpow : (0 : Int) < 2 ^ (w - 1) := by positivity
  have hlo : -(2 ^ (w - 1)) ≤ sat w (x.toInt + d) := le_min (le_max_right _ _) (by omega)
  have hhi : sat w (x.toInt + d) ≤ 2 ^ (w - 1) - 1 := min_le_right _ _
  exact BitVec.toInt_ofInt_eq_self hw hlo (by omega)

/-- A step that is not 0 is added, clamped, to the accumulator of its channel and sets the activity flag (R100). -/
theorem Block.decoded_of_ne_zero (hw : 0 < c.accW) (e : Fin c.nEnc) (h : History) {d : Int} (hd : d ≠ 0) :
    (b.decoded c e h d).acc[e].toInt = sat c.accW (b.acc[e].toInt + d) ∧
      (b.decoded c e h d).encActivity = true := by
  constructor
  · simp [hd, toInt_satAdd_eq_sat hw]
  · simp [activityAfter, hd]

/-- A step of 0 writes the history only (R100). -/
theorem Block.decoded_zero (e : Fin c.nEnc) (h : History) :
    b.decoded c e h 0 = { b with hist := b.hist.set e h } := by
  simp [Block.decoded, activityAfter]

/-! ### ENC_EDGE -/

/-- ENC_EDGE on a channel that exists (R100). -/
theorem Block.encEdge_of_lt {e : Nat} (he : e < c.nEnc) (a p : Bool) :
    b.encEdge c e a p =
      .ok (b.decoded c ⟨e, he⟩ (shiftIn b.hist[e] (sample a p)) (stepOf c ⟨e, he⟩ (shiftIn b.hist[e] (sample a p))),
        .stepped (shiftIn b.hist[e] (sample a p)) (stepOf c ⟨e, he⟩ (shiftIn b.hist[e] (sample a p)))) :=
  Block.encEdge_ok.mpr (.inr ⟨⟨e, he⟩, rfl, rfl, rfl⟩)

/-- An edge whose code is no legal step counts nothing and is recorded, for every legal table and polarity (R107,
R108). -/
theorem Block.encEdge_of_no_step (hc : c.Legal) {e : Nat} (he : e < c.nEnc) {a p : Bool} {h : History}
    (hh : shiftIn b.hist[e] (sample a p) = h)
    (hk : History.classOf h = .identity ∨ History.classOf h = .illegal) :
    b.encEdge c e a p = .ok ({ b with hist := b.hist.set e h he }, .stepped h 0) := by
  have hstep : stepOf c ⟨e, he⟩ h = 0 := by rw [stepOf, ttAt_eq_zero hc.table hk, mul_zero]
  rw [Block.encEdge_of_lt he, hh, hstep, Block.decoded_zero]

/-- Settles O22: what the named update writes for a step that is not 0, and for a step of 0. -/
theorem encEdgeStepsAndSaturates : Obligations.EncEdgeStepsAndSaturates := by
  intro c hwf n e a p b b' h d he hperform
  have hw : 0 < c.accW := Nat.zero_lt_of_lt (Config.legal_of_wf hwf).accW_two_le
  simp only [perform, Block.encEdge_of_lt he, Except.ok.injEq, Prod.mk.injEq, Result.stepped.injEq] at hperform
  obtain ⟨rfl, rfl, rfl⟩ := hperform
  refine ⟨rfl, rfl, rfl, fun hd => Block.decoded_of_ne_zero hw _ _ hd, fun hd => ?_⟩
  rw [hd, Block.decoded_zero]
  exact ⟨rfl, rfl⟩

/-- Settles O23: the code of a repeated sample is an identity code. -/
theorem repeatedSampleCountsNothing : Obligations.RepeatedSampleCountsNothing :=
  fun _ hwf _ _ a p _ he hprev =>
    Block.encEdge_of_no_step (Config.legal_of_wf hwf) he (congrArg (· ++ sample a p) hprev)
      (.inl (classOf_append_self _))

/-- Settles O24: the code of a skipped sample is an illegal code. -/
theorem skippedCodeCountsNothing : Obligations.SkippedCodeCountsNothing :=
  fun _ hwf _ _ a p _ he hprev =>
    Block.encEdge_of_no_step (Config.legal_of_wf hwf) he (congrArg (· ++ sample a p) hprev)
      (.inr (classOf_not_append_self _))

end Sys2Proof.Machine
end

section
/-! PROOFS. The button monitor (41_button_monitor): the edges outside the lockout window that queue nothing (R125,
R126), and what BTN_EDGE can do to the slot memory over any configuration (R127). -/

namespace Sys2Proof.Machine

variable {c : Config} {b b' : Block c.toShape} {r : Result c.toShape}

/-! ### The edges that queue nothing -/

/-- The window is open where no press was accepted before, or DEBOUNCE has passed since (R121, R122). -/
theorem Block.lockedOut_eq_false {n : Fin c.nBtn} {now : BitVec c.tsW} :
    b.lockedOut c n now = false ↔ ¬ (b.btsv[n] = true ∧ (now - b.bts[n]).toNat < c.debounce) := by
  rw [← Bool.not_eq_true, Block.lockedOut, Bool.and_eq_true, decide_eq_true_eq, Block.elapsed]

/-- A press edge on a channel recorded PRESSED (R125). -/
theorem Block.btnEdge_of_pressed {n : Fin c.nBtn} {now : Nat} (hw : b.lockedOut c n (clockOf c now) = false)
    (hl : b.blevel[n] = .pressed) (rs : Level) :
    b.btnEdge c n .pressed rs now = .ok (b, .status .alreadyPressed) :=
  Block.btnEdge_ok.mpr (.inr ⟨n, rfl, .inr ⟨hw, .inr (.inl ⟨rfl, hl, rfl, rfl⟩)⟩⟩)

/-- A release edge (R126). -/
theorem Block.btnEdge_of_released {n : Fin c.nBtn} {now : Nat} (hw : b.lockedOut c n (clockOf c now) = false)
    (rs : Level) : b.btnEdge c n .released rs now = .ok (b.releasedAt c n, .status .releaseRecorded) :=
  Block.btnEdge_ok.mpr (.inr ⟨n, rfl, .inr ⟨hw, .inl ⟨rfl, rfl, rfl⟩⟩⟩)

/-- Settles O30: the path of a channel recorded PRESSED, at this hardware's values. -/
theorem btnEdgeWhilePressedChangesNothing : Obligations.BtnEdgeWhilePressedChangesNothing :=
  fun s n rs _ hn hwindow hl =>
    exec_next.mpr ⟨s.block, .status .alreadyPressed,
      Block.btnEdge_of_pressed (n := ⟨n, hn⟩) (Block.lockedOut_eq_false.mpr hwindow) hl rs, rfl⟩

/-- Settles O32: the release path, at this hardware's values; the named update writes the level only. -/
theorem btnEdgeReleaseWritesTheLevelOnly : Obligations.BtnEdgeReleaseWritesTheLevelOnly :=
  fun s n rs _ hn hwindow =>
    exec_next.mpr ⟨s.block.releasedAt Config.hw ⟨n, hn⟩, .status .releaseRecorded,
      Block.btnEdge_of_released (n := ⟨n, hn⟩) (Block.lockedOut_eq_false.mpr hwindow) rs, rfl⟩

/-! ### The slot memory after an edge -/

/-- An accepted press leaves the slots, or writes its own PRESS to the one at HEAD (R124). -/
theorem Block.acceptPress_slot {n : Fin c.nBtn} {now : BitVec c.tsW} (h : b.acceptPress c n now = .ok (b', r)) :
    b'.slot = b.slot ∨ b'.slot = Memory.write b.slot b.head (eventOf c n .press now) := by
  rcases Block.acceptPress_ok.mp h with ⟨-, rfl, -⟩ | ⟨-, -, rfl, -⟩
  · exact .inl rfl
  · exact .inr rfl

/-- So does every edge: no path but the accepted one reaches the queue (R120). -/
theorem Block.btnEdge_slot {k : Nat} {lvl rs : Level} {now : Nat} (h : b.btnEdge c k lvl rs now = .ok (b', r)) :
    b'.slot = b.slot ∨
      b'.slot = Memory.write b.slot b.head { ch := wrap c.chW k, kind := .press, ts := clockOf c now } := by
  rcases Block.btnEdge_ok.mp h with ⟨-, rfl, -⟩ | ⟨n, rfl, ⟨-, rfl, -⟩ | ⟨-, hpath⟩⟩
  · exact .inl rfl
  · exact .inl rfl
  · rcases hpath with ⟨-, rfl, -⟩ | ⟨-, -, rfl, -⟩ | ⟨-, -, -, rfl, -⟩ | ⟨-, -, -, haccept⟩
    · exact .inl rfl
    · exact .inl rfl
    · exact .inl rfl
    · exact Block.acceptPress_slot haccept

/-- A slot that a write changes is the one written. -/
theorem Memory.eq_of_read_write_ne {σ : Shape} {m : Memory σ} {i j : Nat} {ev : Event σ}
    (h : Memory.read (Memory.write m i ev) j ≠ Memory.read m j) : j = i := by
  by_contra hne
  exact h (Memory.read_write_other m ev hne)

/-- Settles O36: the one write to the slots that BTN_EDGE can make is of a PRESS of its own channel, at HEAD. -/
theorem btnEdgeQueuesPressesOnly : Obligations.BtnEdgeQueuesPressesOnly := by
  intro c n k lvl rs now b b' r h i hchanged
  rcases Block.btnEdge_slot h with hslot | hslot
  · exact absurd (by rw [hslot]) hchanged
  · rw [hslot] at hchanged ⊢
    obtain rfl := Memory.eq_of_read_write_ne hchanged
    exact ⟨rfl, Memory.read_write_same ..⟩

end Sys2Proof.Machine
end

section
/-! PROOFS. The synchroniser steps of the event queue (42_event_queue), in both modes (R67, R152, R153). -/

namespace Sys2Proof.Machine

variable {c : Config} {b : Block c.toShape}

/-- Across two domains SYNC_H's write is of HEAD to HEAD_C (R152). -/
theorem Block.headCopied_of_graySync (h : c.cdc = .graySync) : b.headCopied c = { b with headC := b.head } := by
  rw [Block.headCopied, if_pos h]

/-- Across two domains SYNC_T's write is of TAIL to TAIL_P (R153). -/
theorem Block.tailCopied_of_graySync (h : c.cdc = .graySync) : b.tailCopied c = { b with tailP := b.tail } := by
  rw [Block.tailCopied, if_pos h]

/-- In one domain SYNC_H writes nothing (R67). -/
theorem Block.headCopied_of_sameDomain (h : c.cdc = .sameDomain) : b.headCopied c = b := by
  rw [Block.headCopied, if_neg (h ▸ nofun)]

/-- In one domain SYNC_T writes nothing (R67). -/
theorem Block.tailCopied_of_sameDomain (h : c.cdc = .sameDomain) : b.tailCopied c = b := by
  rw [Block.tailCopied, if_neg (h ▸ nofun)]

/-- Settles O46: each step is its named update, at this hardware's values across two domains and in one domain over
any configuration. -/
theorem syncStepsComplete : Obligations.SyncStepsComplete := by
  refine ⟨fun s => ⟨?_, ?_⟩, fun c n b h => ⟨?_, ?_⟩⟩
  · exact exec_next.mpr ⟨_, _, Block.syncH_ok.mpr ⟨(Block.headCopied_of_graySync rfl).symm, rfl⟩, rfl⟩
  · exact exec_next.mpr ⟨_, _, Block.syncT_ok.mpr ⟨(Block.tailCopied_of_graySync rfl).symm, rfl⟩, rfl⟩
  · exact Block.syncH_ok.mpr ⟨(Block.headCopied_of_sameDomain h).symm, rfl⟩
  · exact Block.syncT_ok.mpr ⟨(Block.tailCopied_of_sameDomain h).symm, rfl⟩

end Sys2Proof.Machine
end

section
/-! PROOFS. RESET (70_reset_and_hazards R220): what the reset block holds per channel, at every shape, and its completion
from any state. -/

namespace Sys2Proof.Machine

variable {σ : Shape}

/-- Every encoder channel starts with an empty history and no ticks to deliver (R221). -/
theorem Block.reset_encoder_channel {e : Nat} (he : e < σ.nEnc) :
    (Block.reset σ).hist[e] = 0b0000#4 ∧ (Block.reset σ).acc[e] = 0#σ.accW :=
  ⟨Vector.getElem_replicate he, Vector.getElem_replicate he⟩

/-- Every button channel starts released, outside any lockout (R221). -/
theorem Block.reset_button_channel {n : Nat} (hn : n < σ.nBtn) :
    (Block.reset σ).blevel[n] = .released ∧ (Block.reset σ).bts[n] = 0#σ.tsW ∧ (Block.reset σ).btsv[n] = false :=
  ⟨Vector.getElem_replicate hn, Vector.getElem_replicate hn, Vector.getElem_replicate hn⟩

/-- RESET completes from every state, a pop in flight included, with the reset block in place of the old one. -/
theorem exec_reset (s : State) :
    exec .reset s = .next { s with block := Block.reset Config.hw.toShape, ret := some (.status .ok) } :=
  exec_next.mpr ⟨_, _, (Block.toReset_ok (b := s.block)).mpr ⟨rfl, rfl⟩, rfl⟩

/-- Settles O60: the block RESET leaves is the reset block whatever the state before; its channels and its slots read as
the lemmas above say, and each other field is the constant its definition gives. -/
theorem resetCompletes : Obligations.ResetCompletes := fun s =>
  ⟨Block.reset _, exec_reset s, fun _ => Block.reset_encoder_channel (σ := Config.hw.toShape), rfl,
    fun _ => Block.reset_button_channel (σ := Config.hw.toShape), Memory.read_nil,
    rfl, rfl, rfl, rfl, rfl, rfl, rfl, rfl, rfl, rfl, rfl, rfl⟩

end Sys2Proof.Machine
end

section
/-! PROOFS. The operation word (30_encoding): its fields and the word they make up (R81), the decoder arm by arm with
what each arm accepts and refuses (R83, R90), and the bits of an event record (10_state R44). -/

namespace Sys2Proof

/-! ### Fields (R81) -/

/-- A field of the word as a slice of its bits. -/
theorem bits_eq_toNat_extractLsb' (w : OpWord) (hi lo : Nat) :
    bits w hi lo = (w.extractLsb' lo (hi - lo + 1)).toNat := by
  rw [bits, BitVec.extractLsb'_toNat, Nat.shiftRight_eq_div_pow]

/-- A slice has the value `v` where the field has. -/
theorem extractLsb'_eq_ofNat_iff {w : OpWord} {hi lo v : Nat} (hv : v < 2 ^ (hi - lo + 1)) :
    w.extractLsb' lo (hi - lo + 1) = BitVec.ofNat _ v ↔ bits w hi lo = v := by
  rw [bits_eq_toNat_extractLsb', ← BitVec.toNat_inj, BitVec.toNat_ofNat, Nat.mod_eq_of_lt hv]

theorem opField_lt (w : OpWord) : opField w < 16 := Nat.mod_lt _ (by decide)

theorem chField_lt (w : OpWord) : chField w < 2 ^ 2 := Nat.mod_lt _ (by decide)

theorem immField_lt (w : OpWord) : immField w < 2 ^ 32 := Nat.mod_lt _ (by decide)

/-- A one-bit field as a number. -/
theorem toNat_bits_beq_one (w : OpWord) (k : Nat) : (bits w k k == 1).toNat = w.toNat / 2 ^ k % 2 := by
  have hlt : w.toNat / 2 ^ k % 2 < 2 := Nat.mod_lt _ (by decide)
  rw [bits, Nat.sub_self, zero_add, pow_one]
  interval_cases w.toNat / 2 ^ k % 2 <;> rfl

/-- A one-bit field that holds the bit `x` reads as `x`. -/
theorem beq_one_of_toNat {n : Nat} {x : Bool} (h : n = x.toNat) : (n == 1) = x := by
  subst h
  cases x <;> rfl

/-- A word is packed from its fields. -/
theorem pack_fields (w : OpWord) : pack (opField w) (chField w) (xBit w) (yBit w) (immField w) = w := by
  have hw := w.isLt
  apply BitVec.eq_of_toNat_eq
  rw [pack, BitVec.toNat_ofNat, xBit, yBit, toNat_bits_beq_one, toNat_bits_beq_one]
  simp only [opField, chField, immField, bits]
  omega

section Pack

variable {op ch imm : Nat} (x y : Bool)

/-- Operands that fit their fields overlap nowhere in the word. -/
theorem toNat_pack (hop : op < 16) (hch : ch < 2 ^ 2) (himm : imm < 2 ^ 32) :
    (pack op ch x y imm).toNat = op * 2 ^ 36 + ch * 2 ^ 34 + x.toNat * 2 ^ 33 + y.toNat * 2 ^ 32 + imm := by
  have hx := Bool.toNat_lt x
  have hy := Bool.toNat_lt y
  rw [pack, BitVec.toNat_ofNat]
  omega

/-- The fields of a packed word are what was packed. -/
theorem fields_pack (hop : op < 16) (hch : ch < 2 ^ 2) (himm : imm < 2 ^ 32) :
    opField (pack op ch x y imm) = op ∧ chField (pack op ch x y imm) = ch ∧ xBit (pack op ch x y imm) = x ∧
      yBit (pack op ch x y imm) = y ∧ immField (pack op ch x y imm) = imm := by
  have hx := Bool.toNat_lt x
  have hy := Bool.toNat_lt y
  simp only [opField, chField, xBit, yBit, immField, bits, toNat_pack x y hop hch himm]
  refine ⟨by omega, by omega, beq_one_of_toNat (by omega), beq_one_of_toNat (by omega), by omega⟩

end Pack

/-- A word whose bits 35:0 are zero is its operation code alone. -/
theorem packPlain_opField {w : OpWord} (h : bits w 35 0 = 0) : packPlain (opField w) = w := by
  have hw := w.isLt
  apply BitVec.eq_of_toNat_eq
  rw [packPlain, toNat_pack _ _ (opField_lt w) (by decide) (by decide)]
  simp only [opField, bits, Bool.toNat_false] at h ⊢
  omega

/-- A word of RDDIAG whose bits 31:0 are zero is its register number alone. -/
theorem packDiag_kField {w : OpWord} (hop : opField w = 0xA) (himm : immField w = 0) : packDiag (kField w) = w := by
  have hw := w.isLt
  apply BitVec.eq_of_toNat_eq
  rw [packDiag, BitVec.toNat_ofNat]
  simp only [opField, immField, kField, bits] at hop himm ⊢
  omega

@[simp] theorem Level.ofBit_bit (l : Level) : Level.ofBit l.bit = l := by cases l <;> rfl

@[simp] theorem Level.bit_ofBit (x : Bool) : (Level.ofBit x).bit = x := by cases x <;> rfl

@[simp] theorem Kind.ofBit_bit (k : Kind) : Kind.ofBit k.bit = k := by cases k <;> rfl

@[simp] theorem Kind.bit_ofBit (x : Bool) : (Kind.ofBit x).bit = x := by cases x <;> rfl

/-! ### The arms of the decoder (R83) -/

section Arms

variable {w : OpWord} {i j : Instr} {r : Reason}

theorem decode_of_encEdge (hop : opField w = 0x1) (himm : immField w = 0) :
    decode w = .ok (.encEdge (chField w) (xBit w) (yBit w)) := by
  simp only [decode, hop, himm, if_true]

theorem decode_of_btnEdge (hop : opField w = 0x2) :
    decode w = .ok (.btnEdge (chField w) (.ofBit (xBit w)) (.ofBit (yBit w)) (immField w)) := by
  simp only [decode, hop]

theorem decode_of_push (hop : opField w = 0x3) (hy : yBit w = false) :
    decode w = .ok (.push (chField w) (.ofBit (xBit w)) (immField w)) := by
  simp only [decode, hop, hy, Bool.false_eq_true, if_false]

theorem decodePlain_ok : decodePlain w i = .ok j ↔ bits w 35 0 = 0 ∧ i = j := by
  unfold decodePlain
  split
  · next h => simp [h]
  · next h => simp [h]

theorem decodePlain_error : decodePlain w i = .error r ↔ bits w 35 0 ≠ 0 ∧ r = .reservedBits := by
  unfold decodePlain
  split
  · next h => simp [h]
  · next h => simp [h, eq_comm]

theorem decodeRddiag_error :
    decodeRddiag w = .error r ↔
      (immField w ≠ 0 ∧ r = .reservedBits) ∨ (immField w = 0 ∧ 5 < kField w ∧ r = .badDiag) := by
  unfold decodeRddiag
  by_cases himm : immField w = 0
  · simp only [himm, if_true, ne_eq, not_true_eq_false, false_and, false_or, true_and]
    split
    case h_7 h0 h1 h2 h3 h4 h5 =>
      simp only [imp_false] at h0 h1 h2 h3 h4 h5
      have hk : 5 < kField w := by omega
      simp [hk, eq_comm]
    all_goals next hk => simp [hk]
  · simp [himm, eq_comm]

/-- An RDDIAG that is accepted is exactly the word of its register. -/
theorem encode_of_decodeRddiag (hop : opField w = 0xA) (h : decodeRddiag w = .ok i) : i.wf = true ∧ encode i = w := by
  unfold decodeRddiag at h
  split at h
  · next himm =>
    have hword := packDiag_kField hop himm
    split at h
    case h_7 => cases h
    all_goals
      next hk =>
        cases h
        exact ⟨rfl, by rw [← hword, hk]; rfl⟩
  · cases h

end Arms

/-! ### Decoding and encoding are inverse -/

/-- Every well-formed operation is read back: its operands sit in the fields the decoder reads. -/
theorem decode_encode {i : Instr} (h : i.wf = true) : decode (encode i) = .ok i := by
  cases i with
  | encEdge e a b =>
    obtain ⟨hop, hch, hx, hy, himm⟩ :=
      fields_pack (op := 0x1) (imm := 0) a b (by decide) (of_decide_eq_true h) (by decide)
    rw [encode, decode_of_encEdge hop himm, hch, hx, hy]
  | btnEdge b lvl rs now =>
    obtain ⟨hb, hnow⟩ := Bool.and_eq_true_iff.mp h
    obtain ⟨hop, hch, hx, hy, himm⟩ :=
      fields_pack (op := 0x2) lvl.bit rs.bit (by decide) (of_decide_eq_true hb) (of_decide_eq_true hnow)
    rw [encode, decode_of_btnEdge hop, hch, hx, hy, himm, Level.ofBit_bit, Level.ofBit_bit]
  | push ch kind ts =>
    obtain ⟨hch', hts⟩ := Bool.and_eq_true_iff.mp h
    obtain ⟨hop, hch, hx, hy, himm⟩ :=
      fields_pack (op := 0x3) kind.bit false (by decide) (of_decide_eq_true hch') (of_decide_eq_true hts)
    rw [encode, decode_of_push hop hy, hch, hx, himm, Kind.ofBit_bit]
  | drain | popChk | popRd | popPub | pop | size | syncH | syncT | reset => decide
  | rddiag0 | rddiag1 | rddiag2 | rddiag3 | rddiag4 | rddiag5 => decide

/-- An accepted word of a row without operands is exactly that row's word. -/
theorem encode_of_decodePlain {w : OpWord} {i j : Instr} (hj : j.wf = true ∧ encode j = packPlain (opField w))
    (h : decodePlain w j = .ok i) : i.wf = true ∧ encode i = w := by
  obtain ⟨hzero, rfl⟩ := decodePlain_ok.mp h
  exact ⟨hj.1, hj.2.trans (packPlain_opField hzero)⟩

/-- A word that decodes is the word of what it decodes to: an arm that does not carry a field demands that it is 0. -/
theorem encode_of_decode {w : OpWord} {i : Instr} (h : decode w = .ok i) : i.wf = true ∧ encode i = w := by
  have hword := pack_fields w
  have hch : channelFits (chField w) = true := decide_eq_true (chField_lt w)
  have himmFits : immFits (immField w) = true := decide_eq_true (immField_lt w)
  unfold decode at h
  split at h
  case h_1 hop =>
    split at h
    · next himm =>
      cases h
      exact ⟨hch, by rw [hop, himm] at hword; exact hword⟩
    · cases h
  case h_2 hop =>
    cases h
    refine ⟨Bool.and_eq_true_iff.mpr ⟨hch, himmFits⟩, ?_⟩
    rw [encode, Level.bit_ofBit, Level.bit_ofBit]
    rwa [hop] at hword
  case h_3 hop =>
    split at h
    · cases h
    · next hy =>
      cases h
      refine ⟨Bool.and_eq_true_iff.mpr ⟨hch, himmFits⟩, ?_⟩
      rw [encode, Kind.bit_ofBit]
      rwa [hop, Bool.eq_false_iff.mpr hy] at hword
  case h_10 hop => exact encode_of_decodeRddiag hop h
  case h_14 => cases h
  all_goals next hop => exact encode_of_decodePlain ⟨rfl, by rw [hop]; rfl⟩ h

/-- Settles O1: the fields of the packed word are the operands. -/
theorem decodeReadsBackEveryEncodedOperation : Obligations.DecodeReadsBackEveryEncodedOperation :=
  fun _ h => decode_encode h

/-- Settles O2: the word is packed from its fields, and each arm of the decoder accounts for all of them. -/
theorem decodedOperationHasExactlyItsWord : Obligations.DecodedOperationHasExactlyItsWord :=
  fun _ _ h => encode_of_decode h

/-- Settles O5, by running the decoder on each word. -/
theorem writtenOutWordsDecodeToTheirOperations : Obligations.WrittenOutWordsDecodeToTheirOperations := by
  unfold Obligations.WrittenOutWordsDecodeToTheirOperations
  decide

/-! ### The rows of the opcode map (R83) -/

/-- Every operation's row is one of the eighteen. -/
theorem rowOf_mem_opTable (i : Instr) : rowOf i ∈ opTable := by
  cases i with
  | encEdge e a b => exact (by decide : rowOf (.encEdge 0 false false) ∈ opTable)
  | btnEdge b lvl rs now => exact (by decide : rowOf (.btnEdge 0 .released .released 0) ∈ opTable)
  | push ch kind ts => exact (by decide : rowOf (.push 0 .release 0) ∈ opTable)
  | _ => decide

/-- The word of a well-formed operation selects that operation's row. -/
theorem encode_and_mask {i : Instr} (h : i.wf = true) : encode i &&& (rowOf i).mask = (rowOf i).matchBits := by
  cases i with
  | encEdge e a b => exact Laws.EncodeSelectsRow.encEdge e a b h
  | btnEdge b lvl rs now => exact Laws.EncodeSelectsRow.btnEdge b lvl rs now h
  | push ch kind ts => exact Laws.EncodeSelectsRow.push ch kind ts h
  | drain | popChk | popRd | popPub | pop | size | syncH | syncT | reset => decide
  | rddiag0 | rddiag1 | rddiag2 | rddiag3 | rddiag4 | rddiag5 => decide

/-- Where the mask of a row has all bits of a field, a word that selects the row has the field of its match. -/
theorem bits_of_and_eq {w mask m : OpWord} (h : w &&& mask = m) {hi lo : Nat}
    (hmask : mask.extractLsb' lo (hi - lo + 1) = BitVec.allOnes _) : bits w hi lo = bits m hi lo := by
  rw [← h, bits_eq_toNat_extractLsb', bits_eq_toNat_extractLsb', BitVec.extractLsb'_and, hmask, BitVec.and_allOnes]

/-- A row without operands fixes the whole word. -/
theorem exists_decode_of_plain_row {w : OpWord} {r : OpRow} (h : w &&& r.mask = r.matchBits) (i : Instr)
    (hwf : i.wf = true) (hmask : (rowOf i).mask = BitVec.allOnes 40) (hencode : encode i = (rowOf i).matchBits)
    (hr : r = rowOf i) : ∃ i, decode w = .ok i ∧ rowOf i = r := by
  subst hr
  rw [hmask, BitVec.and_allOnes, ← hencode] at h
  exact ⟨i, h ▸ decode_encode hwf, rfl⟩

/-- A word that selects a row decodes to an operation of that row. -/
theorem exists_decode_of_selects {w : OpWord} {r : OpRow} (hr : r ∈ opTable) (h : w &&& r.mask = r.matchBits) :
    ∃ i, decode w = .ok i ∧ rowOf i = r := by
  simp only [opTable, List.mem_cons, List.not_mem_nil, or_false] at hr
  rcases hr with rfl | rfl | rfl | hr
  · have hop : opField w = 0x1 := bits_of_and_eq h (by decide)
    have himm : immField w = 0 := bits_of_and_eq h (by decide)
    exact ⟨_, decode_of_encEdge hop himm, rfl⟩
  · have hop : opField w = 0x2 := bits_of_and_eq h (by decide)
    exact ⟨_, decode_of_btnEdge hop, rfl⟩
  · have hop : opField w = 0x3 := bits_of_and_eq h (by decide)
    have hy : bits w 32 32 = 0 := bits_of_and_eq h (by decide)
    exact ⟨_, decode_of_push hop (by rw [yBit, hy]; rfl), rfl⟩
  · rcases hr with hr | hr | hr | hr | hr | hr | hr | hr | hr | hr | hr | hr | hr | hr | hr <;>
      exact exists_decode_of_plain_row h _ rfl (by decide) (by decide) hr

/-- Settles O3: an accepted word is its operation's word, which selects the row; and a row names the fields its arm of
the decoder tests. -/
theorem decoderFollowsTheOpcodeMap : Obligations.DecoderFollowsTheOpcodeMap := by
  refine ⟨fun w i h => ?_, fun w r hr h => exists_decode_of_selects hr h⟩
  obtain ⟨hwf, rfl⟩ := encode_of_decode h
  exact ⟨rowOf_mem_opTable i, encode_and_mask hwf⟩

/-! ### Refused words (R90) -/

/-- A must-be-zero bit of the word's row is 1. -/
def StrayBit (w : OpWord) : Prop :=
  ((opField w = 0x1 ∨ opField w = 0xA) ∧ immField w ≠ 0) ∨ (opField w = 0x3 ∧ yBit w = true) ∨
    ((opField w = 0x4 ∨ opField w = 0x5 ∨ opField w = 0x6 ∨ opField w = 0x7 ∨ opField w = 0x8 ∨ opField w = 0x9 ∨
      opField w = 0xB ∨ opField w = 0xC ∨ opField w = 0xF) ∧ bits w 35 0 ≠ 0)

/-- Every reason the decoder can give, by the operation code. -/
theorem decode_error {w : OpWord} {r : Reason} :
    decode w = .error r ↔
      ((opField w = 0x0 ∨ opField w = 0xD ∨ opField w = 0xE) ∧ r = .reservedOpcode) ∨
      (StrayBit w ∧ r = .reservedBits) ∨ (opField w = 0xA ∧ immField w = 0 ∧ 5 < kField w ∧ r = .badDiag) := by
  have hlt := opField_lt w
  unfold decode StrayBit
  by_cases hencEdge : opField w = 0x1
  · by_cases himm : immField w = 0 <;> simp [hencEdge, himm, eq_comm (a := r)]
  by_cases hpush : opField w = 0x3
  · cases hy : yBit w <;> simp [hpush, eq_comm (a := r)]
  by_cases hrddiag : opField w = 0xA
  · simp [hrddiag, decodeRddiag_error]
  generalize opField w = op at *
  interval_cases op
  all_goals simp [decodePlain_error, eq_comm (a := r)] at hencEdge hpush hrddiag ⊢

/-- The operation code is reserved. -/
def ReservedOp (w : OpWord) : Prop := opField w = 0x0 ∨ opField w = 0xD ∨ opField w = 0xE

/-- A reserved code has no row, so no must-be-zero bits. -/
theorem StrayBit.not_reservedOp {w : OpWord} (h : StrayBit w) : ¬ ReservedOp w := by
  unfold StrayBit at h
  unfold ReservedOp
  omega

/-- The must-be-zero bits of RDDIAG are bits 31:0. -/
theorem strayBit_of_rddiag {w : OpWord} (hop : opField w = 0xA) : StrayBit w ↔ immField w ≠ 0 := by
  simp [StrayBit, hop]

/-- A code as a slice of the word. -/
theorem opSlice_iff {w : OpWord} {v : Nat} (hv : v < 16) : w.extractLsb' 36 4 = BitVec.ofNat 4 v ↔ opField w = v :=
  extractLsb'_eq_ofNat_iff (hi := 39) hv

/-- ReservedOp over the slice of the code. -/
theorem reservedOp_iff {w : OpWord} :
    ReservedOp w ↔ w.extractLsb' 36 4 = 0x0#4 ∨ w.extractLsb' 36 4 = 0xD#4 ∨ w.extractLsb' 36 4 = 0xE#4 := by
  simp only [ReservedOp, opSlice_iff, Nat.reduceLT]

/-- Bit 32 of the word as the field Y. -/
theorem yBit_eq_getLsbD (w : OpWord) : yBit w = w.getLsbD 32 := by
  rw [yBit, bits_eq_toNat_extractLsb', BitVec.getLsbD_eq_extractLsb', Bool.eq_iff_iff, beq_iff_eq, beq_iff_eq,
    ← BitVec.toNat_inj]
  rfl

/-- StrayBit over slices of the word. -/
theorem strayBit_iff {w : OpWord} {op : BitVec 4} (hop : op = w.extractLsb' 36 4) :
    StrayBit w ↔
      ((op = 0x1#4 ∨ op = 0xA#4) ∧ w.extractLsb' 0 32 ≠ 0#32) ∨ (op = 0x3#4 ∧ w.getLsbD 32 = true) ∨
      ((op = 0x4#4 ∨ op = 0x5#4 ∨ op = 0x6#4 ∨ op = 0x7#4 ∨ op = 0x8#4 ∨ op = 0x9#4 ∨ op = 0xB#4 ∨ op = 0xC#4 ∨
        op = 0xF#4) ∧ w.extractLsb' 0 36 ≠ 0#36) := by
  have himm : w.extractLsb' 0 32 = 0#32 ↔ immField w = 0 := extractLsb'_eq_ofNat_iff (hi := 31) (by decide)
  have hall : w.extractLsb' 0 36 = 0#36 ↔ bits w 35 0 = 0 := extractLsb'_eq_ofNat_iff (hi := 35) (by decide)
  subst hop
  simp only [StrayBit, opSlice_iff, Nat.reduceLT, Ne, himm, hall, yBit_eq_getLsbD]

/-- Settles O4: the reasons the decoder can give, with each field read as a slice of the word; a code that is reserved
has no must-be-zero bits. -/
theorem wordsAreRefusedInTheOrderOfTheTests : Obligations.WordsAreRefusedInTheOrderOfTheTests := by
  intro w op reservedOp strayBit
  have hreserved : reservedOp ↔ ReservedOp w := reservedOp_iff.symm
  have hstray : strayBit ↔ StrayBit w := (strayBit_iff rfl).symm
  have hdiag : op = 0xA#4 ↔ opField w = 0xA := opSlice_iff (by decide)
  have hk : (w.extractLsb' 32 4).toNat = kField w := (bits_eq_toNat_extractLsb' w 35 32).symm
  rw [hreserved, hstray, hdiag, hk]
  refine ⟨?_, ?_, ?_, ?_, ?_⟩
  · simp [decode_error, ReservedOp]
  · simpa [decode_error] using StrayBit.not_reservedOp
  · rw [decode_error]
    constructor
    · rintro (⟨-, hr⟩ | ⟨-, hr⟩ | ⟨hop, himm, hgt, -⟩)
      · cases hr
      · cases hr
      · exact ⟨by simp [ReservedOp, hop], by simp [strayBit_of_rddiag hop, himm], hop, hgt⟩
    · rintro ⟨-, hzero, hop, hgt⟩
      exact .inr (.inr ⟨hop, by simpa [strayBit_of_rddiag hop] using hzero, hgt, rfl⟩)
  · simp [decode_error]
  · simp [decode_error]

end Sys2Proof

namespace Sys2Proof.Machine

variable {σ : Shape}

/-! ### The event record (R44) -/

/-- A code of one bit is the code of the kind it is read as. -/
theorem kindCode_ite (v : BitVec 1) : kindCode (if v = 1#1 then .press else .release) = v := by
  revert v
  decide

/-- The fields of a record stand in the slices they are read from. -/
theorem Event.ofBits_toBits (ev : Event σ) : Event.ofBits σ ev.toBits = ev := by
  have hch : ev.toBits.extractLsb' (σ.tsW + 1) σ.chW = ev.ch := by
    rw [Event.toBits, BitVec.extractLsb'_append_eq_of_le (Nat.le_add_right _ 1), Nat.add_sub_cancel_left,
      BitVec.extractLsb'_append_eq_left]
  have hkind : ev.toBits.extractLsb' σ.tsW 1 = kindCode ev.kind := by
    rw [Event.toBits, BitVec.extractLsb'_append_eq_of_le le_rfl, Nat.sub_self, BitVec.extractLsb'_append_eq_right]
  have hts : ev.toBits.extractLsb' 0 σ.tsW = ev.ts := BitVec.extractLsb'_append_eq_right
  obtain ⟨ch, kind, ts⟩ := ev
  rw [Event.ofBits, hch, hkind, hts]
  cases kind <;> rfl

/-- The three slices are the whole number. -/
theorem Event.toBits_ofBits (v : BitVec (σ.chW + 1 + σ.tsW)) : (Event.ofBits σ v).toBits = v := by
  rw [Event.toBits, Event.ofBits, kindCode_ite,
    BitVec.extractLsb'_append_extractLsb'_eq_extractLsb' (start₂ := σ.tsW + 1) (start₁ := σ.tsW) rfl,
    BitVec.extractLsb'_append_extractLsb']

/-- A concatenation as a number. -/
theorem toNat_append_eq_add {m n : Nat} (x : BitVec m) (y : BitVec n) :
    (x ++ y).toNat = x.toNat * 2 ^ n + y.toNat := by
  rw [BitVec.toNat_append, ← Nat.shiftLeft_add_eq_or_of_lt y.isLt, Nat.shiftLeft_eq]

/-- The code of a kind as a number. -/
theorem toNat_kindCode (k : Kind) : (kindCode k).toNat = if k = .press then 1 else 0 := by
  cases k <;> rfl

/-- Settles O6: a record is the concatenation of its three fields. -/
theorem eventRecordLayout : Obligations.EventRecordLayout := by
  refine ⟨fun _ => Event.ofBits_toBits, fun _ => Event.toBits_ofBits, fun σ ev => ?_⟩
  rw [Event.toBits, toNat_append_eq_add, toNat_append_eq_add, toNat_kindCode]
  ring

end Sys2Proof.Machine
end

section
/-! PROOFS. The button monitor (41_button_monitor): the lockout (R122), the press paths (R123, R124) and what an
accepted press says of the one before (R128). -/

namespace Sys2Proof.Machine

variable {c : Config} {b b' : Block c.toShape} {n : Fin c.nBtn} {now : Nat}

/-- The window is closed after a press accepted less than DEBOUNCE ago (R122). -/
theorem Block.lockedOut_eq_true {now : BitVec c.tsW} :
    b.lockedOut c n now = true ↔ b.btsv[n] = true ∧ (now - b.bts[n]).toNat < c.debounce := by
  rw [Block.lockedOut, Bool.and_eq_true, decide_eq_true_eq, Block.elapsed]

/-- An edge inside the window (R122). -/
theorem Block.btnEdge_of_lockedOut (hw : b.lockedOut c n (clockOf c now) = true) (lvl rs : Level) :
    b.btnEdge c n lvl rs now = .ok (b, .status .lockedOut) :=
  Block.btnEdge_ok.mpr (.inr ⟨n, rfl, .inl ⟨hw, rfl, rfl⟩⟩)

/-- A press edge that the re-sample does not confirm (R123). -/
theorem Block.btnEdge_of_glitch (hw : b.lockedOut c n (clockOf c now) = false) (hl : b.blevel[n] = .released) :
    b.btnEdge c n .pressed .released now = .ok (b, .status .glitchRejected) :=
  Block.btnEdge_ok.mpr (.inr ⟨n, rfl, .inr ⟨hw, .inr (.inr (.inl ⟨rfl, hl, rfl, rfl, rfl⟩))⟩⟩)

/-- A press edge that the re-sample confirms is accepted (R124). -/
theorem Block.btnEdge_of_confirmed {r : Result c.toShape} (hw : b.lockedOut c n (clockOf c now) = false)
    (hl : b.blevel[n] = .released) (haccept : b.acceptPress c n (clockOf c now) = .ok (b', r)) :
    b.btnEdge c n .pressed .pressed now = .ok (b', r) :=
  Block.btnEdge_ok.mpr (.inr ⟨n, rfl, .inr ⟨hw, .inr (.inr (.inr ⟨rfl, hl, rfl, haccept⟩))⟩⟩)

/-- Settles O29: the path inside the window, at this hardware's values. -/
theorem btnEdgeInsideTheWindowIsIgnored : Obligations.BtnEdgeInsideTheWindowIsIgnored :=
  fun s n lvl rs _ hn harmed helapsed =>
    exec_next.mpr ⟨s.block, .status .lockedOut,
      Block.btnEdge_of_lockedOut (n := ⟨n, hn⟩) (Block.lockedOut_eq_true.mpr ⟨harmed, helapsed⟩) lvl rs, rfl⟩

/-- Settles O31: the path of a press not confirmed, at this hardware's values. -/
theorem btnEdgeGlitchChangesNothing : Obligations.BtnEdgeGlitchChangesNothing :=
  fun s n _ hn hwindow hl =>
    exec_next.mpr ⟨s.block, .status .glitchRejected,
      Block.btnEdge_of_glitch (n := ⟨n, hn⟩) (Block.lockedOut_eq_false.mpr hwindow) hl, rfl⟩

/-- At this hardware's values the producers test HEAD + 1 against TAIL_P (R141). -/
theorem isFull_hw {b : Block Config.hw.toShape} : b.isFull Config.hw = true ↔ (b.head + 1) % 20 = b.tailP :=
  beq_iff_eq

/-- Where the test fails there is room. -/
theorem isFull_hw_eq_false {b : Block Config.hw.toShape} :
    b.isFull Config.hw = false ↔ (b.head + 1) % 20 ≠ b.tailP := by
  rw [← Bool.not_eq_true, isFull_hw]

/-- Settles O33: the path of a press confirmed with room in the queue, at this hardware's values. -/
theorem btnEdgeAcceptedIsQueued : Obligations.BtnEdgeAcceptedIsQueued := by
  intro s n now hn hwindow hl hhead hroom
  have hopen := Block.lockedOut_eq_false (c := Config.hw) (n := ⟨n, hn⟩) (now := clockOf _ now) |>.mpr hwindow
  exact ⟨_, exec_next.mpr ⟨_, _, Block.btnEdge_of_confirmed hopen hl
      (Block.acceptPress_ok.mpr (.inr ⟨isFull_hw_eq_false.mpr hroom, hhead, rfl, rfl⟩)), rfl⟩,
    fun _ => Memory.read_write ..⟩

/-- Settles O34: the path of a press confirmed with the queue full, at this hardware's values. -/
theorem btnEdgeAcceptedButDropped : Obligations.BtnEdgeAcceptedButDropped := by
  intro s n now hn hwindow hl hfull
  have hopen := Block.lockedOut_eq_false (c := Config.hw) (n := ⟨n, hn⟩) (now := clockOf _ now) |>.mpr hwindow
  exact exec_next.mpr ⟨_, _, Block.btnEdge_of_confirmed hopen hl
    (Block.acceptPress_ok.mpr (.inl ⟨isFull_hw.mpr hfull, rfl, rfl⟩)), rfl⟩

/-- An accepted press writes level, timestamp and valid bit, dropped or not (R124). -/
theorem Block.acceptPress_registers {now : BitVec c.tsW} {r : Result c.toShape}
    (h : b.acceptPress c n now = .ok (b', r)) :
    b'.blevel[n] = .pressed ∧ b'.bts[n] = now ∧ b'.btsv[n] = true := by
  rcases Block.acceptPress_ok.mp h with ⟨-, rfl, -⟩ | ⟨-, -, rfl, -⟩ <;> simp

/-- Settles O35: of the paths of BTN_EDGE only the confirmed press is answered so. -/
theorem acceptedPressesAreAWindowApart : Obligations.AcceptedPressesAreAWindowApart := by
  intro c n k lvl rs now b b' st hk h hst
  rcases Block.btnEdge_ok.mp h with ⟨hge, -⟩ | ⟨m, rfl, ⟨-, -, hr⟩ | ⟨hw, hpath⟩⟩
  · exact absurd hk (Nat.not_lt.mpr hge)
  · cases hr
    exact absurd hst (by decide)
  · rcases hpath with ⟨-, -, hr⟩ | ⟨-, -, -, hr⟩ | ⟨-, -, -, -, hr⟩ | ⟨hlvl, hl, hrs, haccept⟩
    · cases hr
      exact absurd hst (by decide)
    · cases hr
      exact absurd hst (by decide)
    · cases hr
      exact absurd hst (by decide)
    · have hopen := Block.lockedOut_eq_false.mp hw
      exact ⟨hlvl, hrs, hl, fun harmed => Nat.not_lt.mp fun hlt => hopen ⟨harmed, hlt⟩,
        Block.acceptPress_registers haccept⟩

/-- Settles O37: the paths of a locked-out edge, of a release and of a channel recorded PRESSED take no re-sample. -/
theorem reSampleIsADontCareOffThePressPath : Obligations.ReSampleIsADontCareOffThePressPath := by
  intro c n k lvl rs rs' now b hk hoff
  have hsame : ∀ out, (∀ rs, b.btnEdge c k lvl rs now = out) →
      b.btnEdge c k lvl rs now = b.btnEdge c k lvl rs' now := fun out h => (h rs).trans (h rs').symm
  cases hw : b.lockedOut c ⟨k, hk⟩ (clockOf c now) with
  | true => exact hsame _ fun rs => Block.btnEdge_of_lockedOut hw lvl rs
  | false =>
    rcases hoff with rfl | hl | hlocked
    · exact hsame _ fun rs => Block.btnEdge_of_released hw rs
    · cases lvl with
      | released => exact hsame _ fun rs => Block.btnEdge_of_released hw rs
      | pressed => exact hsame _ fun rs => Block.btnEdge_of_pressed hw hl rs
    · exact absurd hlocked (Block.lockedOut_eq_false.mp hw)

end Sys2Proof.Machine
end

section
/-! PROOFS. What every operation keeps, over any configuration: it completes under the invariant (00_scope R14), it
writes what R42 lets it write, it changes nothing where it is refused (R90), and the phase moves as R92 says; then the
step around it. -/

namespace Sys2Proof.Machine

variable {c : Config} {b b' : Block c.toShape} {r : Result c.toShape}

/-! ### Completion under the invariant (R14, R47) -/

namespace Block.Inv

/-- An event the consumer sees is counted. -/
theorem occ_pos (h : b.Inv c) (hne : b.headSeen c ≠ b.tail) : 0 < b.occ c := by
  have := h.consumed_occ hne
  omega

/-- An event the consumer sees is written (R47). -/
theorem tail_written (h : b.Inv c) (hne : b.headSeen c ≠ b.tail) : ∃ ev, Memory.read b.slot b.tail = some ev := by
  have hlive := h.live_written 0 (h.occ_pos hne)
  rw [add_zero, Nat.mod_eq_of_lt h.tail_lt] at hlive
  exact Option.ne_none_iff_exists'.mp hlive

end Block.Inv

theorem Block.encEdge_completes (e : Nat) (a p : Bool) : ∃ b' r, b.encEdge c e a p = .ok (b', r) := by
  rcases Nat.lt_or_ge e c.nEnc with he | he
  · exact ⟨_, _, Block.encEdge_ok.mpr (.inr ⟨⟨e, he⟩, rfl, rfl, rfl⟩)⟩
  · exact ⟨_, _, Block.encEdge_ok.mpr (.inl ⟨he, rfl, rfl⟩)⟩

/-- An accepted press needs HEAD to be an index, no more. -/
theorem Block.acceptPress_completes (hhead : b.head < c.qsize) (n : Fin c.nBtn) (now : BitVec c.tsW) :
    ∃ b' r, b.acceptPress c n now = .ok (b', r) := by
  cases hf : b.isFull c with
  | true => exact ⟨_, _, Block.acceptPress_ok.mpr (.inl ⟨hf, rfl, rfl⟩)⟩
  | false => exact ⟨_, _, Block.acceptPress_ok.mpr (.inr ⟨hf, hhead, rfl, rfl⟩)⟩

theorem Block.btnEdge_completes (hhead : b.head < c.qsize) (k : Nat) (lvl rs : Level) (now : Nat) :
    ∃ b' r, b.btnEdge c k lvl rs now = .ok (b', r) := by
  rcases Nat.lt_or_ge k c.nBtn with hk | hk
  · let n : Fin c.nBtn := ⟨k, hk⟩
    cases hw : b.lockedOut c n (clockOf c now) with
    | true => exact ⟨_, _, Block.btnEdge_of_lockedOut hw lvl rs⟩
    | false =>
      cases lvl with
      | released => exact ⟨_, _, Block.btnEdge_of_released hw rs⟩
      | pressed =>
        cases hl : b.blevel[n] with
        | pressed => exact ⟨_, _, Block.btnEdge_of_pressed hw hl rs⟩
        | released =>
          cases rs with
          | released => exact ⟨_, _, Block.btnEdge_of_glitch hw hl⟩
          | pressed =>
            obtain ⟨b', r, haccept⟩ := Block.acceptPress_completes hhead n (clockOf c now)
            exact ⟨b', r, Block.btnEdge_of_confirmed hw hl haccept⟩
  · exact ⟨_, _, Block.btnEdge_ok.mpr (.inl ⟨hk, rfl, rfl⟩)⟩

theorem Block.push_completes (hhead : b.head < c.qsize) (k : Nat) (kind : Kind) (ts : Nat) :
    ∃ b' r, b.push c k kind ts = .ok (b', r) := by
  rcases Nat.lt_or_ge k c.nBtn with hk | hk
  · cases hf : b.isFull c with
    | true => exact ⟨_, _, Block.push_ok.mpr (.inr ⟨⟨k, hk⟩, rfl, .inl ⟨hf, rfl, rfl⟩⟩)⟩
    | false => exact ⟨_, _, Block.push_ok.mpr (.inr ⟨⟨k, hk⟩, rfl, .inr ⟨hf, hhead, rfl, rfl⟩⟩)⟩
  · exact ⟨_, _, Block.push_ok.mpr (.inl ⟨hk, rfl, rfl⟩)⟩

/-- In its phase an operation is what follows the requirement; in any other it is refused. Either way it answers. -/
theorem requirePhase_completes {p : PopPhase} {k : Completion c} (hk : b.popPhase = p → ∃ b' r, k = .ok (b', r)) :
    ∃ b' r, requirePhase c p b k = .ok (b', r) := by
  by_cases hp : b.popPhase = p
  · rw [requirePhase_of_eq k hp]
    exact hk hp
  · exact ⟨_, _, requirePhase_of_ne k hp⟩

theorem Block.popChk_completes : ∃ b' r, b.popChk c = .ok (b', r) :=
  requirePhase_completes fun _ => by
    cases he : b.isEmpty c <;> simp [he]

/-- A pop in flight reads a slot that is written (R47). -/
theorem Block.popRd_completes (hi : b.Inv c) : ∃ b' r, b.popRd c = .ok (b', r) := by
  by_cases hp : b.popPhase = .haveEvent
  · obtain ⟨ev, hev⟩ := hi.tail_written (hi.pending (hp ▸ nofun))
    exact ⟨_, _, Block.popRd_ok.mpr (.inr ⟨hp, hi.tail_lt, ev, hev, rfl, rfl⟩)⟩
  · exact ⟨_, _, Block.popRd_ok.mpr (.inl ⟨hp, rfl, rfl⟩)⟩

/-- A pop that is published has its record in the latch (R59). -/
theorem Block.popPub_completes (hi : b.Inv c) : ∃ b' r, b.popPub c = .ok (b', r) := by
  by_cases hp : b.popPhase = .copied
  · obtain ⟨hlatch, -⟩ := hi.latched hp
    obtain ⟨ev, hev⟩ := Option.ne_none_iff_exists'.mp hlatch
    exact ⟨_, _, Block.popPub_ok.mpr (.inr ⟨hp, ev, hev, rfl, rfl⟩)⟩
  · exact ⟨_, _, Block.popPub_ok.mpr (.inl ⟨hp, rfl, rfl⟩)⟩

/-- The whole pop reads a slot that is written (R47). -/
theorem Block.pop_completes (hi : b.Inv c) : ∃ b' r, b.pop c = .ok (b', r) := by
  by_cases hp : b.popPhase = .idle
  · cases he : b.isEmpty c with
    | true => exact ⟨_, _, Block.pop_ok.mpr (.inr (.inl ⟨hp, he, rfl, rfl⟩))⟩
    | false =>
      obtain ⟨ev, hev⟩ := hi.tail_written (Block.isEmpty_eq_false.mp he)
      exact ⟨_, _, Block.pop_ok.mpr (.inr (.inr ⟨hp, he, hi.tail_lt, ev, hev, rfl, rfl⟩))⟩
  · exact ⟨_, _, Block.pop_ok.mpr (.inl ⟨hp, rfl, rfl⟩)⟩

/-- Every operation completes or is refused as a result. -/
theorem perform_completes (hi : b.Inv c) (n : Nat) (i : Instr) : ∃ b' r, perform c n i b = .ok (b', r) := by
  cases i with
  | encEdge e a p => exact Block.encEdge_completes e a p
  | btnEdge k lvl rs now => exact Block.btnEdge_completes hi.head_lt k lvl rs now
  | push k kind ts => exact Block.push_completes hi.head_lt k kind ts
  | popChk => exact Block.popChk_completes
  | popRd => exact Block.popRd_completes hi
  | popPub => exact Block.popPub_completes hi
  | pop => exact Block.pop_completes hi
  | drain | size | rddiag0 | rddiag1 | rddiag2 | rddiag3 | rddiag4 | rddiag5 =>
    exact requirePhase_completes fun _ => ⟨_, _, rfl⟩
  | syncH | syncT | reset => exact ⟨_, _, rfl⟩

/-- Settles O13: the slots and the latch an operation reads are written. -/
theorem noOperationFaultsUnderTheInvariant : Obligations.NoOperationFaultsUnderTheInvariant :=
  fun _ _ n i _ hi => perform_completes hi n i

/-- Every operation of the machine has a next state. -/
theorem exec_completes {s : State} (hi : s.Inv) (i : Instr) : ∃ t, exec i s = .next t := by
  obtain ⟨b, r, h⟩ := perform_completes hi s.sp i
  exact ⟨_, exec_next.mpr ⟨b, r, h, rfl⟩⟩

/-- Settles O14: whatever the stream holds next, the step answers; and what it answers satisfies the invariant. -/
theorem everyStepHasANextState : Obligations.EveryStepHasANextState := by
  intro s hi
  obtain ⟨t, ht⟩ : ∃ t, step s = .next t := by
    cases hs : s.stream with
    | nil => exact ⟨s, step_next.mpr (.inl ⟨hs, rfl⟩)⟩
    | cons w rest =>
      cases hd : decode w with
      | error why => exact ⟨_, step_next.mpr (.inr ⟨w, rest, hs, .inl ⟨why, hd, rfl⟩⟩)⟩
      | ok i =>
        obtain ⟨t, ht⟩ := exec_completes (s := s.advanced rest) hi i
        exact ⟨t, step_next.mpr (.inr ⟨w, rest, hs, .inr ⟨i, hd, ht⟩⟩)⟩
  exact ⟨t, ht, everyStepKeepsTheInvariant s t hi ht⟩

/-- Settles O10: this hardware's configuration is legal too. -/
theorem resetSatisfiesTheInvariant : Obligations.ResetSatisfiesTheInvariant :=
  ⟨fun _ hwf => Block.Inv.reset (Config.legal_of_wf hwf), Block.Inv.reset hw_legal⟩

/-! ### The frame (R42) -/

section SameAt

variable {σ : Shape} {f : Field}

theorem Block.sameAt_refl (b : Block σ) (f : Field) : b.sameAt b f := by
  cases f <;> rfl

theorem Block.sameAt_trans {b b' b'' : Block σ} (h : b.sameAt b' f) (h' : b'.sameAt b'' f) : b.sameAt b'' f := by
  cases f <;> exact Eq.trans h h'

end SameAt

section Frame

variable {f : Field} {head : Nat}

/-- ENC_EDGE's writes are to its own channel and the activity flag. -/
theorem Block.decoded_sameAt {e : Fin c.nEnc} {a p : Bool} (hist : History) (d : Int)
    (hf : mayWrite (.encEdge e a p) head f = false) : b.sameAt (b.decoded c e hist d) f := by
  cases f with
  | hist k =>
    have hk : e.val ≠ k := fun heq => by simp [mayWrite, heq] at hf
    simp [Block.sameAt, Vector.getElem?_set_ne _ hk]
  | acc k =>
    have hk : e.val ≠ k := fun heq => by simp [mayWrite, heq] at hf
    by_cases hd : d = 0 <;> simp [Block.sameAt, hd, Vector.getElem?_set_ne _ hk]
  | encActivity => cases hf
  | _ => rfl

/-- A press that is accepted writes the registers of its own channel. -/
theorem Block.pressedAt_sameAt {n : Fin c.nBtn} {lvl rs : Level} {t : Nat} (now : BitVec c.tsW)
    (hf : mayWrite (.btnEdge n lvl rs t) head f = false) : b.sameAt (b.pressedAt c n now) f := by
  cases f with
  | blevel k | bts k | btsv k =>
    have hk : n.val ≠ k := fun heq => by simp [mayWrite, heq] at hf
    simp [Block.sameAt, Vector.getElem?_set_ne _ hk]
  | _ => rfl

/-- A release writes the level of its own channel. -/
theorem Block.releasedAt_sameAt {n : Fin c.nBtn} {lvl rs : Level} {t : Nat}
    (hf : mayWrite (.btnEdge n lvl rs t) head f = false) : b.sameAt (b.releasedAt c n) f := by
  cases f with
  | blevel k =>
    have hk : n.val ≠ k := fun heq => by simp [mayWrite, heq] at hf
    simp [Block.sameAt, Vector.getElem?_set_ne _ hk]
  | _ => rfl

/-- A push that finds the queue full writes its diagnostics. -/
theorem Block.dropped_sameAt (ch : BitVec c.chW) (hf : pushWrites head f = false) :
    b.sameAt ((b.attempted c ch).dropped c) f := by
  cases f with
  | pushAtt | dropCnt | lastCh => cases hf
  | _ => rfl

/-- A push that finds room writes the slot at HEAD, HEAD and its diagnostics. -/
theorem Block.published_sameAt (ch : BitVec c.chW) (ev : Event c.toShape) (hf : pushWrites b.head f = false) :
    b.sameAt ((b.attempted c ch).published c (Memory.write b.slot b.head ev)) f := by
  cases f with
  | slot k =>
    have hk : k ≠ b.head := fun heq => by simp [pushWrites, heq] at hf
    exact (Memory.read_write_other _ _ hk).symm
  | head | pushAtt | pushOk | lastCh => cases hf
  | _ => rfl

/-- A button channel writes, beside its own registers, what a push writes. -/
theorem pushWrites_of_btnEdge {k : Nat} {lvl rs : Level} {now : Nat}
    (hf : mayWrite (.btnEdge k lvl rs now) head f = false) : pushWrites head f = false := by
  cases f with
  | blevel | bts | btsv => rfl
  | _ => exact hf

theorem Block.acceptPress_frame {n : Fin c.nBtn} {lvl rs : Level} {t : Nat} {now : BitVec c.tsW}
    (hf : mayWrite (.btnEdge n lvl rs t) b.head f = false) (h : b.acceptPress c n now = .ok (b', r)) :
    b.sameAt b' f := by
  have hpush := pushWrites_of_btnEdge hf
  rcases Block.acceptPress_ok.mp h with ⟨-, rfl, -⟩ | ⟨-, -, rfl, -⟩
  · exact Block.sameAt_trans (Block.dropped_sameAt _ hpush) (Block.pressedAt_sameAt now hf)
  · exact Block.sameAt_trans (Block.published_sameAt _ _ hpush) (Block.pressedAt_sameAt now hf)

theorem Block.btnEdge_frame {k : Nat} {lvl rs : Level} {now : Nat}
    (hf : mayWrite (.btnEdge k lvl rs now) b.head f = false) (h : b.btnEdge c k lvl rs now = .ok (b', r)) :
    b.sameAt b' f := by
  rcases Block.btnEdge_ok.mp h with ⟨-, rfl, -⟩ | ⟨n, rfl, ⟨-, rfl, -⟩ | ⟨-, hpath⟩⟩
  · exact Block.sameAt_refl _ f
  · exact Block.sameAt_refl _ f
  · rcases hpath with ⟨-, rfl, -⟩ | ⟨-, -, rfl, -⟩ | ⟨-, -, -, rfl, -⟩ | ⟨-, -, -, haccept⟩
    · exact Block.releasedAt_sameAt hf
    · exact Block.sameAt_refl _ f
    · exact Block.sameAt_refl _ f
    · exact Block.acceptPress_frame hf haccept

theorem Block.push_frame {k : Nat} {kind : Kind} {ts : Nat} (hf : pushWrites b.head f = false)
    (h : b.push c k kind ts = .ok (b', r)) : b.sameAt b' f := by
  rcases Block.push_ok.mp h with ⟨-, rfl, -⟩ | ⟨n, -, ⟨-, rfl, -⟩ | ⟨-, -, rfl, -⟩⟩
  · exact Block.sameAt_refl _ f
  · exact Block.dropped_sameAt _ hf
  · exact Block.published_sameAt _ _ hf

theorem Block.drain_frame (hf : mayWrite .drain head f = false) (h : b.drain c = .ok (b', r)) : b.sameAt b' f := by
  rcases Block.drain_ok.mp h with ⟨-, rfl, -⟩ | ⟨-, rfl, -⟩
  · exact Block.sameAt_refl _ f
  · cases f with
    | acc | encActivity => cases hf
    | _ => rfl

/-- What R42 lets a pop write is all that POP and its three steps write. -/
theorem perform_pop_sameAt {n : Nat} {i : Instr} (hi : i ∈ [.popChk, .popRd, .popPub, .pop]) (hf : popWrites f = false)
    (h : perform c n i b = .ok (b', r)) : b.sameAt b' f := by
  have hsame : b' = { b with
      tail := b'.tail, popPhase := b'.popPhase, popLatch := b'.popLatch, popAtt := b'.popAtt, popOk := b'.popOk } := by
    simp only [List.mem_cons, List.not_mem_nil, or_false] at hi
    rcases hi with rfl | rfl | rfl | rfl
    · rcases Block.popChk_ok.mp h with ⟨-, rfl, -⟩ | ⟨-, -, rfl, -⟩ | ⟨-, -, rfl, -⟩ <;> rfl
    · rcases Block.popRd_ok.mp h with ⟨-, rfl, -⟩ | ⟨-, -, ev, -, rfl, -⟩ <;> rfl
    · rcases Block.popPub_ok.mp h with ⟨-, rfl, -⟩ | ⟨-, ev, -, rfl, -⟩ <;> rfl
    · rcases Block.pop_ok.mp h with ⟨-, rfl, -⟩ | ⟨-, -, rfl, -⟩ | ⟨-, -, -, ev, -, rfl, -⟩ <;> rfl
  rw [hsame]
  cases f with
  | tail | popPhase | popLatch | popAtt | popOk => cases hf
  | _ => rfl

/-- Every operation keeps every field that R42 does not let it write. -/
theorem perform_frame {n : Nat} {i : Instr} (hf : mayWrite i b.head f = false) (h : perform c n i b = .ok (b', r)) :
    b.sameAt b' f := by
  cases i with
  | encEdge e a p =>
    rcases Block.encEdge_ok.mp h with ⟨-, rfl, -⟩ | ⟨ch, rfl, rfl, -⟩
    · exact Block.sameAt_refl _ f
    · exact Block.decoded_sameAt _ _ hf
  | btnEdge k lvl rs now => exact Block.btnEdge_frame hf h
  | push k kind ts => exact Block.push_frame hf h
  | drain => exact Block.drain_frame hf h
  | popChk | popRd | popPub | pop => exact perform_pop_sameAt (by simp) hf h
  | size => obtain ⟨rfl, -⟩ := Block.size_ok.mp h; exact Block.sameAt_refl _ f
  | rddiag0 | rddiag1 | rddiag2 | rddiag3 | rddiag4 | rddiag5 =>
    obtain ⟨rfl, -⟩ := Block.rddiag_ok.mp h; exact Block.sameAt_refl _ f
  | syncH =>
    obtain ⟨rfl, -⟩ := Block.syncH_ok.mp h
    cases f with
    | headC => cases hf
    | _ => rfl
  | syncT =>
    obtain ⟨rfl, -⟩ := Block.syncT_ok.mp h
    cases f with
    | tailP => cases hf
    | _ => rfl
  | reset => cases hf

end Frame

/-- Settles O15: exec writes the block and the result only, and the block as R42 lets it. -/
theorem fieldsAreWrittenOnlyByTheirOwners : Obligations.FieldsAreWrittenOnlyByTheirOwners := by
  intro i s t h
  obtain ⟨b, r, hperform, rfl⟩ := exec_next.mp h
  exact ⟨rfl, rfl, fun f hf => perform_frame hf hperform⟩

/-! ### Refusals and phases (R90, R92) -/

/-- The phase an operation of LOOP is allowed in (R92). -/
def phaseNeeded : Instr → PopPhase
  | .popRd => .haveEvent
  | .popPub => .copied
  | _ => .idle

/-- The table of R92 allows an operation of LOOP in one phase and every other operation in all. -/
theorem phaseAllows_eq_false_iff {p : PopPhase} {i : Instr} :
    phaseAllows p i = false ↔ contextOf i = some .loop ∧ p ≠ phaseNeeded i := by
  cases i with
  | encEdge | btnEdge | push | syncH | syncT | reset => simp [phaseAllows, contextOf]
  | _ => cases p <;> decide

/-- An operation of LOOP requires its phase before all else. -/
theorem perform_of_phase_ne {i : Instr} (n : Nat) (hi : contextOf i = some .loop) (hp : b.popPhase ≠ phaseNeeded i) :
    perform c n i b = .ok (b, .refused .badPhase) := by
  cases i with
  | encEdge | btnEdge | push | syncH | syncT | reset => cases hi
  | _ => exact requirePhase_of_ne _ hp

/-- In its phase an operation of LOOP is not refused. -/
theorem phase_ne_of_perform_refused {n : Nat} {i : Instr} {why : Reason} (hi : contextOf i = some .loop)
    (h : perform c n i b = .ok (b', .refused why)) : b.popPhase ≠ phaseNeeded i := by
  cases i with
  | encEdge | btnEdge | push | syncH | syncT | reset => cases hi
  | drain =>
    rcases Block.drain_ok.mp h with ⟨hp, -⟩ | ⟨-, -, hr⟩
    · exact hp
    · cases hr
  | popChk =>
    rcases Block.popChk_ok.mp h with ⟨hp, -⟩ | ⟨-, -, -, hr⟩ | ⟨-, -, -, hr⟩
    · exact hp
    · cases hr
    · cases hr
  | popRd =>
    rcases Block.popRd_ok.mp h with ⟨hp, -⟩ | ⟨-, -, ev, -, -, hr⟩
    · exact hp
    · cases hr
  | popPub =>
    rcases Block.popPub_ok.mp h with ⟨hp, -⟩ | ⟨-, ev, -, -, hr⟩
    · exact hp
    · cases hr
  | pop =>
    rcases Block.pop_ok.mp h with ⟨hp, -⟩ | ⟨-, -, -, hr⟩ | ⟨-, -, -, ev, -, -, hr⟩
    · exact hp
    · cases hr
    · cases hr
  | size =>
    obtain ⟨-, ⟨hp, -⟩ | ⟨-, hr⟩⟩ := Block.size_ok.mp h
    · exact hp
    · cases hr
  | rddiag0 | rddiag1 | rddiag2 | rddiag3 | rddiag4 | rddiag5 =>
    obtain ⟨-, ⟨hp, -⟩ | ⟨-, hr⟩⟩ := Block.rddiag_ok.mp h
    · exact hp
    · cases hr

/-- An operation the phase forbids is refused with BAD_PHASE. -/
theorem perform_of_phase_forbidden {i : Instr} (n : Nat) (h : phaseAllows b.popPhase i = false) :
    perform c n i b = .ok (b, .refused .badPhase) := by
  obtain ⟨hloop, hp⟩ := phaseAllows_eq_false_iff.mp h
  exact perform_of_phase_ne n hloop hp

/-- A refusal outside LOOP is of a channel number. -/
theorem perform_refused_of_ne_loop {n : Nat} {i : Instr} {why : Reason} (hi : contextOf i ≠ some .loop)
    (h : perform c n i b = .ok (b', .refused why)) : b' = b ∧ why = .badChannel := by
  cases i with
  | encEdge e a p =>
    rcases Block.encEdge_ok.mp h with ⟨-, rfl, hr⟩ | ⟨ch, -, -, hr⟩ <;> cases hr
    exact ⟨rfl, rfl⟩
  | btnEdge k lvl rs now =>
    rcases Block.btnEdge_ok.mp h with ⟨-, rfl, hr⟩ | ⟨m, -, ⟨-, -, hr⟩ | ⟨-, hpath⟩⟩
    · cases hr; exact ⟨rfl, rfl⟩
    · cases hr
    · rcases hpath with ⟨-, -, hr⟩ | ⟨-, -, -, hr⟩ | ⟨-, -, -, -, hr⟩ | ⟨-, -, -, haccept⟩
      · cases hr
      · cases hr
      · cases hr
      · rcases Block.acceptPress_ok.mp haccept with ⟨-, -, hr⟩ | ⟨-, -, -, hr⟩ <;> cases hr
  | push k kind ts =>
    rcases Block.push_ok.mp h with ⟨-, rfl, hr⟩ | ⟨m, -, ⟨-, -, hr⟩ | ⟨-, -, -, hr⟩⟩ <;> cases hr
    exact ⟨rfl, rfl⟩
  | syncH | syncT | reset => cases h
  | _ => exact absurd rfl hi

/-- An operation that is refused leaves the block, and is refused for its phase only where the phase forbids it. -/
theorem perform_refused {n : Nat} {i : Instr} {why : Reason} (h : perform c n i b = .ok (b', .refused why)) :
    b' = b ∧ (why = .badPhase → phaseAllows b.popPhase i = false) := by
  by_cases hi : contextOf i = some .loop
  · have hp := phase_ne_of_perform_refused hi h
    rw [perform_of_phase_ne n hi hp] at h
    cases h
    exact ⟨rfl, fun _ => phaseAllows_eq_false_iff.mpr ⟨hi, hp⟩⟩
  · obtain ⟨rfl, rfl⟩ := perform_refused_of_ne_loop hi h
    exact ⟨rfl, nofun⟩

/-- Settles O16: a refused operation answers the block it was given. -/
theorem refusedOperationsChangeNothing : Obligations.RefusedOperationsChangeNothing := by
  intro i s t why h hret
  obtain ⟨b, r, hperform, rfl⟩ := exec_next.mp h
  cases hret
  exact (perform_refused hperform).1

/-- Settles O17: an operation of LOOP requires its phase before all else, and no other operation requires one. -/
theorem badPhaseExactlyWhenThePhaseForbids : Obligations.BadPhaseExactlyWhenThePhaseForbids := by
  refine fun i s => ⟨fun hforbids => ?_, fun t h hret => ?_⟩
  · exact exec_next.mpr ⟨_, _, perform_of_phase_forbidden s.sp hforbids, rfl⟩
  · obtain ⟨b, r, hperform, rfl⟩ := exec_next.mp h
    cases hret
    exact (perform_refused hperform).2 rfl

/-- The phase after an operation that is not refused (R92). -/
theorem perform_phase {n : Nat} {i : Instr} (h : perform c n i b = .ok (b', r)) (hr : ∀ why, r ≠ .refused why) :
    b'.popPhase = phaseAfter b.popPhase i r := by
  cases i with
  | popChk =>
    rcases Block.popChk_ok.mp h with ⟨-, -, rfl⟩ | ⟨-, -, rfl, rfl⟩ | ⟨-, -, rfl, rfl⟩
    · exact absurd rfl (hr _)
    · rfl
    · rfl
  | popRd =>
    rcases Block.popRd_ok.mp h with ⟨-, -, rfl⟩ | ⟨-, -, ev, -, rfl, -⟩
    · exact absurd rfl (hr _)
    · rfl
  | popPub =>
    rcases Block.popPub_ok.mp h with ⟨-, -, rfl⟩ | ⟨-, ev, -, rfl, -⟩
    · exact absurd rfl (hr _)
    · rfl
  | pop => rcases Block.pop_ok.mp h with ⟨-, rfl, -⟩ | ⟨-, -, rfl, -⟩ | ⟨-, -, -, ev, -, rfl, -⟩ <;> rfl
  | reset =>
    obtain ⟨rfl, -⟩ := (Block.toReset_ok (b := b)).mp h
    rfl
  | _ =>
    obtain ⟨hphase, -, -⟩ := perform_pop_frame rfl h
    exact hphase

/-- Settles O18: the phase moves with the named updates of the pop operations only. -/
theorem phaseAfterAnOperation : Obligations.PhaseAfterAnOperation := by
  intro i s t r h hret hr
  obtain ⟨b, r, hperform, rfl⟩ := exec_next.mp h
  cases hret
  exact perform_phase hperform hr

/-- Settles O19: the channel number is looked at before anything is written. -/
theorem outOfRangeChannelsAreRefused : Obligations.OutOfRangeChannelsAreRefused :=
  fun _ _ _ =>
    ⟨fun _ _ _ he => Block.encEdge_ok.mpr (.inl ⟨he, rfl, rfl⟩),
      fun _ _ _ _ hk => Block.btnEdge_ok.mpr (.inl ⟨hk, rfl, rfl⟩),
      fun _ _ _ hch => Block.push_ok.mpr (.inl ⟨hch, rfl, rfl⟩)⟩

/-- Settles O20: boot is the check. -/
theorem bootAdmitsExactlyTheLegalConfigurations : Obligations.BootAdmitsExactlyTheLegalConfigurations := by
  refine ⟨by decide, fun c => ⟨fun hwf => ?_, fun hwf => ?_⟩⟩
  · rw [Config.boot, if_pos hwf]
  · rw [Config.boot, if_neg (Bool.eq_false_iff.mp hwf)]

/-! ### The step (R92) -/

/-- With DIAG_ATOMIC the place of an operation in the stream is read by no operation (R72). -/
theorem perform_of_diagAtomic (hc : c.diagAtomic = true) (n m : Nat) (i : Instr) (b : Block c.toShape) :
    perform c n i b = perform c m i b := by
  cases i with
  | rddiag0 | rddiag1 | rddiag2 | rddiag3 | rddiag4 | rddiag5 =>
    simp only [perform, Block.rddiag, Block.diagRead, hc, if_true]
  | _ => rfl

/-- Settles O7: exec passes the stream and the position through, and at this hardware's values reads neither. -/
theorem stepRunsTheDecodedOperation : Obligations.StepRunsTheDecodedOperation := by
  intro s w rest i hstream hdecode
  have hstep : step s = exec i (s.advanced rest) := by
    simp only [step, hstream, hdecode]
  refine ⟨hstep, fun t h => ?_⟩
  obtain ⟨b, r, hperform, rfl⟩ := exec_next.mp h
  refine ⟨rfl, rfl, hstep.trans (exec_next.mpr ⟨b, r, ?_, rfl⟩)⟩
  exact (perform_of_diagAtomic rfl _ _ i _).trans hperform

/-- Settles O8: the second of the three things a step can be. -/
theorem stepRefusesAWordThatIsNoOperation : Obligations.StepRefusesAWordThatIsNoOperation :=
  fun _ w rest why hstream hdecode => step_next.mpr (.inr ⟨w, rest, hstream, .inl ⟨why, hdecode, rfl⟩⟩)

/-- Settles O9: the first of the three things a step can be. -/
theorem stepWaitsForAnOperation : Obligations.StepWaitsForAnOperation :=
  fun _ hstream => step_next.mpr (.inl ⟨hstream, rfl⟩)

end Sys2Proof.Machine
end

section
/-! PROOFS. The quadrature decoder: ENC_EDGE at this hardware's values (40_quadrature_decoder R100 to R104), the count
of a closed walk (R110), and edges of different channels (20_memory R70). -/

namespace Sys2Proof

/-! ### Closed walks (R110) -/

@[simp] theorem History.current_append (p s : Sample) : History.current (p ++ s) = s :=
  BitVec.extractLsb'_append_eq_right

@[simp] theorem History.previous_append (p s : Sample) : History.previous (p ++ s) = p :=
  BitVec.extractLsb'_append_eq_left

/-- What a legal step counts towards the forward steps less the reverse steps. -/
def History.direction (h : History) : Int :=
  match History.classOf h with
  | .forward => 1
  | .reverse => -1
  | .identity => 0
  | .illegal => 0

/-- How many forward steps lead from sample `o` to sample `s`, once round at most. -/
def forwardSteps (o s : Sample) : Int :=
  if s = o then 0 else if s = nextForward o then 1 else if s = nextForward (nextForward o) then 2 else 3

/-- Counted from the sample a forward code leads to, every legal step moves by its direction, but the code itself and
its reversal move a whole turn back or on. -/
theorem forwardSteps_legal {f h : History} (hf : History.classOf f = .forward)
    (hh : History.classOf h = .forward ∨ History.classOf h = .reverse) :
    forwardSteps (History.current f) (History.current h) - forwardSteps (History.current f) (History.previous h) =
      History.direction h - 4 * (if h = f then 1 else if h = History.swap f then -1 else 0) := by
  revert f h
  decide

/-- A legal table with TT_SYM counts one forward code and its reversal (R103 d). -/
theorem ttAt_of_ttSym {tt : Vector Int 16} (hwf : ttWF tt = true) (hsym : ttSym tt = true) :
    ∃ f, History.classOf f = .forward ∧
      ∀ h, ttAt tt h = if h = f then 1 else if h = History.swap f then -1 else 0 := by
  obtain ⟨f, hf, r, hr, hat⟩ := ttWF_iff.mp hwf
  have hswap := ttSym_iff.mp hsym f (by rw [hat, if_pos rfl])
  have hr' : r = History.swap f := by
    rw [hat] at hswap
    split_ifs at hswap with h1 h2
    exact h2.symm
  exact ⟨f, hf, fun h => by rw [hat, hr']⟩

/-- The codes an encoder sees along a walk of samples. -/
def walkCodes (start : Sample) (walk : List Sample) : List History :=
  List.zipWith (fun (p s : Sample) => (p ++ s : History)) (start :: walk) walk

theorem walkCodes_cons (start s : Sample) (walk : List Sample) :
    walkCodes start (s :: walk) = (start ++ s : History) :: walkCodes s walk := rfl

/-- Forward steps less reverse steps, as a sum. -/
theorem sum_direction (codes : List History) :
    (codes.map History.direction).sum =
      (codes.countP fun h => History.classOf h = .forward : Nat) -
        (codes.countP fun h => History.classOf h = .reverse : Nat) := by
  induction codes with
  | nil => rfl
  | cons h codes ih =>
    rw [List.map_cons, List.sum_cons, ih, List.countP_cons, List.countP_cons, History.direction]
    cases History.classOf h <;> simp <;> ring

/-- What a walk of legal steps counts: the position moves by its steps less the whole turns it counted. -/
theorem sum_ttAt_walk {tt : Vector Int 16} {f : History} (hf : History.classOf f = .forward)
    (hat : ∀ h, ttAt tt h = if h = f then 1 else if h = History.swap f then -1 else 0) (walk : List Sample)
    (start : Sample)
    (hlegal : ∀ h ∈ walkCodes start walk, History.classOf h = .forward ∨ History.classOf h = .reverse) :
    forwardSteps (History.current f) ((start :: walk).getLast (List.cons_ne_nil _ _)) -
        forwardSteps (History.current f) start =
      ((walkCodes start walk).map History.direction).sum - 4 * ((walkCodes start walk).map (ttAt tt)).sum := by
  induction walk generalizing start with
  | nil => simp [walkCodes]
  | cons s walk ih =>
    rw [walkCodes_cons] at hlegal ⊢
    obtain ⟨hfirst, hrest⟩ := List.forall_mem_cons.mp hlegal
    have hstep := forwardSteps_legal hf hfirst
    rw [History.current_append, History.previous_append, ← hat] at hstep
    have hwalk := ih s hrest
    rw [List.getLast_cons (List.cons_ne_nil s walk), List.map_cons, List.map_cons, List.sum_cons, List.sum_cons]
    omega

/-- Settles O26: at the end of a closed walk the position is back where it was. -/
theorem closedWalkCountsWholeTurns : Obligations.ClosedWalkCountsWholeTurns := by
  intro tt hwf hsym start walk codes hclosed hlegal
  obtain ⟨f, hf, hat⟩ := ttAt_of_ttSym hwf hsym
  have hcount := sum_ttAt_walk hf hat walk start hlegal
  rw [List.getLast_of_mem_getLast? hclosed, sub_self, sum_direction] at hcount
  exact (sub_eq_zero.mp hcount.symm).symm

end Sys2Proof

namespace Sys2Proof.Machine

variable {c : Config} {b : Block c.toShape}

/-! ### ENC_EDGE at this hardware's values -/

/-- Inside the range of the accumulator the saturating sum is the sum (R104). -/
theorem satAdd_eq_add {w : Nat} {x : BitVec w} {d : Int} (hlo : -(2 ^ (w - 1)) ≤ x.toInt + d)
    (hhi : x.toInt + d ≤ 2 ^ (w - 1) - 1) : satAdd x d = x + BitVec.ofInt w d := by
  rw [satAdd, sat, max_eq_left hlo, min_eq_left hhi, BitVec.ofInt_add, BitVec.ofInt_toInt]

/-- Counting up stops at the greatest value. -/
theorem satAdd_one (x : BitVec 32) : satAdd x 1 = if x = 0x7FFFFFFF#32 then x else x + 1#32 := by
  split
  · next h => rw [h]; decide
  · next h =>
    have hne : x.toInt ≠ (0x7FFFFFFF#32).toInt := fun heq => h (BitVec.eq_of_toInt_eq heq)
    rw [show (0x7FFFFFFF#32).toInt = 2147483647 by decide] at hne
    have hlo := x.le_toInt
    have hhi := x.toInt_lt
    exact satAdd_eq_add (by omega) (by omega)

/-- Counting down stops at the least value. -/
theorem satAdd_neg_one (x : BitVec 32) : satAdd x (-1) = if x = 0x80000000#32 then x else x - 1#32 := by
  split
  · next h => rw [h]; decide
  · next h =>
    have hne : x.toInt ≠ (0x80000000#32).toInt := fun heq => h (BitVec.eq_of_toInt_eq heq)
    rw [show (0x80000000#32).toInt = -2147483648 by decide] at hne
    have hlo := x.le_toInt
    have hhi := x.toInt_lt
    rw [satAdd_eq_add (by omega) (by omega), BitVec.sub_eq_add_neg]
    rfl

/-- The step of the default table, every polarity being +1 (R102, R105). -/
theorem stepOf_hw (e : Fin 4) (h : History) :
    stepOf Config.hw e h = if h = 0b1000#4 then 1 else if h = 0b0010#4 then -1 else 0 := by
  revert e h
  decide

/-- The new history, pin by pin (R100, R101). -/
theorem shiftIn_sample (h : History) (a p : Bool) :
    shiftIn h (sample a p) = h.extractLsb' 0 2 ++ BitVec.ofBool a ++ BitVec.ofBool p := by
  revert h a p
  decide

/-- A step of +1 at this hardware's widths. -/
theorem Block.decoded_one (b : Block Config.hw.toShape) (e : Fin 4) (h : History) :
    b.decoded Config.hw e h 1 = { b with
      hist := b.hist.set e h
      acc := b.acc.set e (if b.acc[e] = 0x7FFFFFFF#32 then b.acc[e] else b.acc[e] + 1#32)
      encActivity := true } := by
  rw [← satAdd_one]
  simp [Block.decoded, activityAfter]

/-- A step of -1 at this hardware's widths. -/
theorem Block.decoded_neg_one (b : Block Config.hw.toShape) (e : Fin 4) (h : History) :
    b.decoded Config.hw e h (-1) = { b with
      hist := b.hist.set e h
      acc := b.acc.set e (if b.acc[e] = 0x80000000#32 then b.acc[e] else b.acc[e] - 1#32)
      encActivity := true } := by
  rw [← satAdd_neg_one]
  simp [Block.decoded, activityAfter]

/-- Settles O21: the step of the default table, and the named update with it case by case. -/
theorem encEdgeCompletes : Obligations.EncEdgeCompletes := by
  intro s e a p he h v
  have hh : shiftIn (s.block.hist[e]'he) (sample a p) = h := shiftIn_sample _ a p
  refine exec_next.mpr ⟨_, _, Block.encEdge_of_lt (c := Config.hw) he a p, ?_⟩
  rw [hh, stepOf_hw ⟨e, he⟩ h]
  by_cases hforward : h = 0b1000#4
  · rw [if_pos hforward, if_pos hforward, Block.decoded_one s.block ⟨e, he⟩ h, beq_iff_eq.mpr hforward, Bool.or_true,
      Bool.true_or]
    rfl
  · rw [if_neg hforward, if_neg hforward, beq_eq_false_iff_ne.mpr hforward, Bool.or_false]
    by_cases hreverse : h = 0b0010#4
    · rw [if_pos hreverse, if_pos hreverse, Block.decoded_neg_one s.block ⟨e, he⟩ h, beq_iff_eq.mpr hreverse,
        Bool.or_true]
      rfl
    · rw [if_neg hreverse, if_neg hreverse, Block.decoded_zero (c := Config.hw) ⟨e, he⟩ h,
        beq_eq_false_iff_ne.mpr hreverse, Bool.or_false]

/-! ### Different channels -/

/-- A channel number out of range (R11). -/
theorem Block.encEdge_of_ge {e : Nat} (he : c.nEnc ≤ e) (a p : Bool) :
    b.encEdge c e a p = .ok (b, .refused .badChannel) := Block.encEdge_ok.mpr (.inl ⟨he, rfl, rfl⟩)

/-- An edge leaves the history of every other channel. -/
theorem Block.decoded_hist_other {e : Fin c.nEnc} {e' : Nat} (he' : e' < c.nEnc) (hne : e.val ≠ e') (h : History)
    (d : Int) : (b.decoded c e h d).hist[e'] = b.hist[e'] := Vector.getElem_set_ne e.isLt he' hne

/-- The writes of two channels commute (R70). -/
theorem Block.decoded_comm {e e' : Fin c.nEnc} (hne : e.val ≠ e'.val) (h h' : History) (d d' : Int) :
    (b.decoded c e h d).decoded c e' h' d' = (b.decoded c e' h' d').decoded c e h d := by
  have hhist : (b.hist.set e h).set e' h' = (b.hist.set e' h').set e h := Vector.set_comm _ _ hne
  have hacc : ((b.decoded c e h d).decoded c e' h' d').acc = ((b.decoded c e' h' d').decoded c e h d).acc := by
    rw [Block.decoded_acc c (b.decoded c e h d) e', Block.decoded_acc c (b.decoded c e' h' d') e,
      Block.decoded_acc_other hne, Block.decoded_acc_other hne.symm, Block.decoded_acc, Block.decoded_acc]
    split_ifs
    · rfl
    · rfl
    · rfl
    · exact Vector.set_comm _ _ hne
  have hactivity : activityAfter (activityAfter b.encActivity d) d' =
      activityAfter (activityAfter b.encActivity d') d := Bool.or_right_comm _ _ _
  calc (b.decoded c e h d).decoded c e' h' d'
      = { b with
          hist := (b.hist.set e h).set e' h'
          acc := ((b.decoded c e h d).decoded c e' h' d').acc
          encActivity := activityAfter (activityAfter b.encActivity d) d' } := rfl
    _ = (b.decoded c e' h' d').decoded c e h d := by
      rw [hhist, hacc, hactivity]
      rfl

/-- Settles O27: an edge reads and writes its own history and accumulator; the flag it sets is a disjunction. -/
theorem encoderChannelsAreIndependent : Obligations.EncoderChannelsAreIndependent := by
  intro c n e e' a p a' p' b b1 b2 b1' b2' r1 r2 r1' r2' hne h1 h2 h1' h2'
  simp only [perform] at h1 h2 h1' h2'
  rcases Nat.lt_or_ge e c.nEnc with he | he <;> rcases Nat.lt_or_ge e' c.nEnc with he' | he'
  · rw [Block.encEdge_of_lt he] at h1
    rw [Block.encEdge_of_lt he'] at h1'
    cases h1
    cases h1'
    rw [Block.encEdge_of_lt he', Block.decoded_hist_other he' hne] at h2
    rw [Block.encEdge_of_lt he, Block.decoded_hist_other he hne.symm] at h2'
    cases h2
    cases h2'
    exact ⟨Block.decoded_comm hne .., rfl, rfl⟩
  · rw [Block.encEdge_of_lt he] at h1
    rw [Block.encEdge_of_ge he'] at h1' h2
    cases h1
    cases h1'
    rw [Block.encEdge_of_lt he] at h2'
    cases h2
    cases h2'
    exact ⟨rfl, rfl, rfl⟩
  · rw [Block.encEdge_of_ge he] at h1 h2'
    rw [Block.encEdge_of_lt he'] at h1'
    cases h1
    cases h1'
    rw [Block.encEdge_of_lt he'] at h2
    cases h2
    cases h2'
    exact ⟨rfl, rfl, rfl⟩
  · rw [Block.encEdge_of_ge he] at h1 h2'
    rw [Block.encEdge_of_ge he'] at h1' h2
    cases h1
    cases h1'
    cases h2
    cases h2'
    exact ⟨rfl, rfl, rfl⟩

end Sys2Proof.Machine
end

section
/-! PROOFS. The event queue (42_event_queue): each operation at this hardware's values, a pop and its three steps
(R149), what each side sees of the occupancy (R141), a pop in flight (R59), and pushes followed by as many pops
(R155). -/

namespace Sys2Proof.Machine

variable {c : Config} {b b' : Block c.toShape} {r : Result c.toShape}

/-! ### The operations at this hardware's values -/

/-- Settles O38: the path of a push that finds room. -/
theorem pushStoresAndPublishes : Obligations.PushStoresAndPublishes :=
  fun _ ch _ _ hch hhead hroom =>
    ⟨_, exec_next.mpr ⟨_, _, Block.push_ok.mpr
        (.inr ⟨⟨ch, hch⟩, rfl, .inr ⟨isFull_hw_eq_false.mpr hroom, hhead, rfl, rfl⟩⟩), rfl⟩,
      fun _ => Memory.read_write ..⟩

/-- Settles O39: the path of a push that finds the queue full. -/
theorem pushIntoAFullQueueDropsTheEvent : Obligations.PushIntoAFullQueueDropsTheEvent :=
  fun _ ch _ _ hch hfull =>
    exec_next.mpr ⟨_, _, Block.push_ok.mpr
      (.inr ⟨⟨ch, hch⟩, rfl, .inl ⟨isFull_hw.mpr hfull, rfl, rfl⟩⟩), rfl⟩

/-- At this hardware's values the consumer tests HEAD_C against TAIL (R141). -/
theorem isEmpty_hw {b : Block Config.hw.toShape} : b.isEmpty Config.hw = true ↔ b.headC = b.tail := beq_iff_eq

/-- Where the test fails there is an event. -/
theorem isEmpty_hw_eq_false {b : Block Config.hw.toShape} : b.isEmpty Config.hw = false ↔ b.headC ≠ b.tail :=
  Block.isEmpty_eq_false

/-- Settles O40: the two paths of POP.CHK in its phase. -/
theorem popChkCompletes : Obligations.PopChkCompletes :=
  fun _ hp =>
    ⟨fun hempty => exec_next.mpr ⟨_, _, Block.popChk_ok.mpr (.inr (.inl ⟨hp, isEmpty_hw.mpr hempty, rfl, rfl⟩)), rfl⟩,
      fun hevent =>
        exec_next.mpr ⟨_, _, Block.popChk_ok.mpr (.inr (.inr ⟨hp, isEmpty_hw_eq_false.mpr hevent, rfl, rfl⟩)), rfl⟩⟩

/-- Settles O41: the path of POP.RD in its phase, over a written slot. -/
theorem popRdCompletes : Obligations.PopRdCompletes :=
  fun _ ev hp htail hev =>
    exec_next.mpr ⟨_, _, Block.popRd_ok.mpr (.inr ⟨hp, htail, ev, hev, rfl, rfl⟩), rfl⟩

/-- Settles O42: the path of POP.PUB in its phase, with a written latch. -/
theorem popPubCompletes : Obligations.PopPubCompletes :=
  fun _ ev hp hlatch => exec_next.mpr ⟨_, _, Block.popPub_ok.mpr (.inr ⟨hp, ev, hlatch, rfl, rfl⟩), rfl⟩

/-- Settles O43: the two paths of POP in its phase. -/
theorem popCompletes : Obligations.PopCompletes :=
  fun _ hp =>
    ⟨fun hempty => exec_next.mpr ⟨_, _, Block.pop_ok.mpr (.inr (.inl ⟨hp, isEmpty_hw.mpr hempty, rfl, rfl⟩)), rfl⟩,
      fun ev hevent htail hev =>
        exec_next.mpr ⟨_, _,
          Block.pop_ok.mpr (.inr (.inr ⟨hp, isEmpty_hw_eq_false.mpr hevent, htail, ev, hev, rfl, rfl⟩)), rfl⟩⟩

/-- Settles O45: the occupancy the consumer sees is a distance around the ring, at most the true one. -/
theorem sizeCompletes : Obligations.SizeCompletes := by
  intro s hp
  refine ⟨s.block.occC Config.hw, exec_next.mpr ⟨_, _, Block.size_ok.mpr ⟨rfl, .inr ⟨hp, rfl⟩⟩, rfl⟩,
    ringSub_lt (c := Config.hw) _ _ (by decide), ringSub_cast (c := Config.hw) (by decide), fun hi => ?_⟩
  have hocc : (s.block.occ Config.hw : Int) = ((s.block.head : Int) - s.block.tail) % 20 :=
    ringSub_cast (c := Config.hw) (by decide)
  rw [← hocc]
  exact Int.ofNat_le.mpr (Block.Inv.occC_le_occ hi)

/-! ### POP and its three steps (R149) -/

/-- Entering the phase one is in changes nothing. -/
theorem Block.inPhase_self {p : PopPhase} (hp : b.popPhase = p) : b.inPhase c p = b := by
  subst hp
  rfl

/-- Of two phases entered one after the other the last stays. -/
theorem Block.inPhase_inPhase (p q : PopPhase) : (b.inPhase c p).inPhase c q = b.inPhase c q := rfl

/-- A phase entered first may be entered last. -/
theorem Block.latched_inPhase (p : PopPhase) (ev : Event c.toShape) :
    (b.inPhase c p).latched c ev = (b.latched c ev).inPhase c p := rfl

theorem Block.consumed_inPhase (p : PopPhase) : (b.inPhase c p).consumed c = (b.consumed c).inPhase c p := rfl

/-- An operation that completes and a run from there are a run. -/
theorem runOps_cons_of_ok {b₁ : Block c.toShape} {n : Nat} {i : Instr} {rest : List Instr} {t : Trace c.toShape}
    (hfirst : perform c n i b = .ok (b₁, r)) (hrest : runOps c (n + 1) rest b₁ = .ok (b', t)) :
    runOps c n (i :: rest) b = .ok (b', (i, r) :: t) := runOps_cons.mpr ⟨b₁, r, t, hfirst, hrest, rfl⟩

/-- The run POP.CHK, POP.RD, POP.PUB returns an event exactly where POP does, and ends in the same block. -/
theorem runOps_threeSteps {n : Nat} {ev : Event c.toShape} :
    runOps c n [.popChk, .popRd, .popPub] b =
        .ok (b', [(.popChk, .status .present), (.popRd, .status .ok), (.popPub, .event ev)]) ↔
      perform c n .pop b = .ok (b', .event ev) := by
  constructor
  · intro h
    obtain ⟨b₁, r₁, t₁, h₁, hrest₁, ht₁⟩ := runOps_cons.mp h
    obtain ⟨b₂, r₂, t₂, h₂, hrest₂, rfl⟩ := runOps_cons.mp hrest₁
    obtain ⟨b₃, r₃, t₃, h₃, hrest₃, rfl⟩ := runOps_cons.mp hrest₂
    obtain ⟨rfl, rfl⟩ := runOps_nil.mp hrest₃
    cases ht₁
    rcases Block.popChk_ok.mp h₁ with ⟨-, -, hr⟩ | ⟨-, -, -, hr⟩ | ⟨hp, he, rfl, -⟩
    · cases hr
    · cases hr
    · rcases Block.popRd_ok.mp h₂ with ⟨-, -, hr⟩ | ⟨-, htail, ev', hev, rfl, -⟩
      · cases hr
      · rcases Block.popPub_ok.mp h₃ with ⟨-, -, hr⟩ | ⟨-, ev'', hlatch, rfl, hr⟩
        · cases hr
        · cases hlatch
          cases hr
          refine Block.pop_ok.mpr (.inr (.inr ⟨hp, he, htail, ev, hev, ?_, rfl⟩))
          rw [Block.latched_inPhase, Block.inPhase_inPhase, Block.consumed_inPhase, Block.inPhase_inPhase]
          exact Block.inPhase_self hp
  · intro h
    rcases Block.pop_ok.mp h with ⟨-, -, hr⟩ | ⟨-, -, -, hr⟩ | ⟨hp, he, htail, ev', hev, rfl, hr⟩
    · cases hr
    · cases hr
    · cases hr
      have hchk : perform c n .popChk b = .ok ((b.popTried c).inPhase c .haveEvent, .status .present) :=
        Block.popChk_ok.mpr (.inr (.inr ⟨hp, he, rfl, rfl⟩))
      have hrd : perform c (n + 1) .popRd ((b.popTried c).inPhase c .haveEvent) =
          .ok (((b.popTried c).latched c ev).inPhase c .copied, .status .ok) :=
        Block.popRd_ok.mpr (.inr ⟨rfl, htail, ev, hev, by rw [Block.latched_inPhase, Block.inPhase_inPhase], rfl⟩)
      have hpub : perform c (n + 1 + 1) .popPub (((b.popTried c).latched c ev).inPhase c .copied) =
          .ok ((((b.popTried c).latched c ev).consumed c).inPhase c .idle, .event ev) :=
        Block.popPub_ok.mpr (.inr ⟨rfl, ev, rfl, by rw [Block.consumed_inPhase, Block.inPhase_inPhase], rfl⟩)
      rw [Block.inPhase_self (b := ((b.popTried c).latched c ev).consumed c) hp] at hpub
      exact runOps_cons_of_ok hchk (runOps_cons_of_ok hrd (runOps_cons_of_ok hpub (runOps_nil.mpr ⟨rfl, rfl⟩)))

/-- Settles O44: the two EMPTY paths are the same, and the event path is the three steps. -/
theorem popIsItsThreeSteps : Obligations.PopIsItsThreeSteps := by
  intro c n b b'
  refine ⟨fun h => ?_, fun _ h => runOps_threeSteps.mp h, fun _ h => runOps_threeSteps.mpr h⟩
  rcases Block.popChk_ok.mp h with ⟨-, -, hr⟩ | ⟨hp, he, rfl, -⟩ | ⟨-, -, -, hr⟩
  · cases hr
  · exact Block.pop_ok.mpr (.inr (.inl ⟨hp, he, rfl, rfl⟩))
  · cases hr

/-! ### What each side sees (R141) -/

namespace Block.Inv

/-- The producers never see fewer events than there are. -/
theorem occ_le_occP (h : b.Inv c) : b.occ c ≤ b.occP c := by
  have := h.occ_add_lag
  omega

/-- The producers never see more than QSIZE - 1 events. -/
theorem occP_le (h : b.Inv c) : b.occP c ≤ c.qsize - 1 :=
  Nat.le_sub_one_of_lt (ringSub_lt _ _ h.qsize_pos)

/-- Empty, as the consumer tests it, is a view of 0. -/
theorem isEmpty_iff (h : b.Inv c) : b.isEmpty c = true ↔ b.occC c = 0 := by
  rw [Block.isEmpty, beq_iff_eq, ← ringSub_left_inj h.headSeen_lt h.tail_lt h.tail_lt, ringSub_self, Block.occC]

/-- Full, as the producers test it, is a view of QSIZE - 1. -/
theorem isFull_iff (h : b.Inv c) : b.isFull c = true ↔ b.occP c = c.qsize - 1 := by
  have hpos := h.qsize_pos
  rw [Block.isFull, beq_iff_eq, nextIndex_eq_iff h.head_lt h.tailSeen_lt, Block.occP]
  omega

end Block.Inv

/-- In one domain each side sees the other's index itself (R67). -/
theorem Block.views_of_sameDomain (hc : c.cdc = .sameDomain) : b.headSeen c = b.head ∧ b.tailSeen c = b.tail := by
  simp only [Block.headSeen, Block.tailSeen, hc, and_self]

/-- Settles O48: distances around the ring in the order of R46. -/
theorem occupancyViewsAreOrdered : Obligations.OccupancyViewsAreOrdered := by
  intro c _ b hi
  refine ⟨hi.occC_le_occ, hi.occ_le_occP, hi.occP_le, hi.isEmpty_iff, hi.isFull_iff, fun hc => ?_⟩
  obtain ⟨hhead, htail⟩ := Block.views_of_sameDomain (b := b) hc
  rw [Block.occC, Block.occP, hhead, htail]
  exact ⟨rfl, rfl⟩

/-- Settles O50: each answer is the side's own test, which the invariant ties to the occupancy. -/
theorem presentAndFullAreNeverUnfounded : Obligations.PresentAndFullAreNeverUnfounded := by
  refine fun c _ n b b' hi => ⟨fun h => ?_, fun ch kind ts h => ?_⟩
  · rcases Block.popChk_ok.mp h with ⟨-, -, hr⟩ | ⟨-, -, -, hr⟩ | ⟨-, he, -, -⟩
    · cases hr
    · cases hr
    · have hne := Block.isEmpty_eq_false.mp he
      exact ⟨hi.occ_pos hne, hi.tail_written hne⟩
  · rcases Block.push_ok.mp h with ⟨-, -, hr⟩ | ⟨m, -, ⟨hf, -, -⟩ | ⟨-, -, -, hr⟩⟩
    · cases hr
    · exact hi.isFull_iff.mp hf
    · cases hr

/-! ### A pop in flight (R59, R147) -/

/-- No operation of INT or SYNC may write TAIL, the phase, the latch, or a slot other than the one at HEAD (R42). -/
theorem mayWrite_of_int_or_sync {i : Instr} (hi : contextOf i = some .int ∨ contextOf i = some .sync) (head : Nat) :
    mayWrite i head .tail = false ∧ mayWrite i head .popPhase = false ∧ mayWrite i head .popLatch = false ∧
      ∀ k ≠ head, mayWrite i head (.slot k) = false := by
  cases i with
  | encEdge | syncH | syncT => exact ⟨rfl, rfl, rfl, fun _ _ => rfl⟩
  | btnEdge | push => exact ⟨rfl, rfl, rfl, fun _ hk => beq_eq_false_iff_ne.mpr hk⟩
  | _ => rcases hi with hi | hi <;> cases hi

/-- Settles O51: with an event at TAIL the slot there is not the one at HEAD, and the frame gives the rest. -/
theorem popInFlightIsUndisturbed : Obligations.PopInFlightIsUndisturbed := by
  intro c _ n i b b' r hi hp hctx h
  obtain ⟨htail, hphase, hlatch, hslot⟩ := mayWrite_of_int_or_sync hctx b.head
  have hne : b.tail ≠ b.head := (hi.head_ne_tail (hi.pending hp)).symm
  have hread : Memory.read b.slot b.tail = Memory.read b'.slot b.tail := perform_frame (hslot _ hne) h
  have htail' : b.tail = b'.tail := perform_frame htail h
  exact ⟨by rw [← htail', hread], htail'.symm, (perform_frame hphase h).symm, (perform_frame hlatch h).symm⟩

/-! ### Pushes, then as many pops (R155) -/

/-- Pushes that all return OK append their events to the live ones, oldest first, and leave the phase. -/
theorem runOps_pushes (hc : c.Legal) {evs : List (Fin c.nBtn × Kind × Nat)} {n : Nat} {t : Trace c.toShape}
    (hi : b.Inv c)
    (h : runOps c n (evs.map fun x => Instr.push x.1.val x.2.1 x.2.2) b = .ok (b', t))
    (hok : ∀ p ∈ t, p.2 = .status .ok) :
    b'.Inv c ∧ b'.popPhase = b.popPhase ∧
      b'.live c = b.live c ++
        evs.map fun x => some { ch := wrap c.chW x.1.val, kind := x.2.1, ts := clockOf c x.2.2 } := by
  induction evs generalizing n b t with
  | nil =>
    obtain ⟨rfl, rfl⟩ := runOps_nil.mp h
    exact ⟨hi, rfl, (List.append_nil _).symm⟩
  | cons x evs ih =>
    obtain ⟨b₁, r, t', hfirst, hrest, rfl⟩ := runOps_cons.mp h
    obtain ⟨hr, hok'⟩ := List.forall_mem_cons.mp hok
    obtain ⟨hphase, -, -⟩ := perform_pop_frame rfl hfirst
    obtain ⟨hi', hphase', hlive⟩ := ih (perform_inv hc hi hfirst) hrest hok'
    have hpushed : pushedBy c (.push x.1.val x.2.1 x.2.2) r =
        [some { ch := wrap c.chW x.1.val, kind := x.2.1, ts := clockOf c x.2.2 }] := if_pos hr
    refine ⟨hi', hphase'.trans hphase, ?_⟩
    rw [hlive, Block.push_events hi hfirst, hpushed, List.append_assoc]
    rfl

/-- A consumer that sees HEAD itself can pop every live event, oldest first. -/
theorem runOps_pops {n : Nat} {evs : List (Option (Event c.toShape))} (hi : b.Inv c) (hp : b.popPhase = .idle)
    (hseen : b.headSeen c = b.head) (hlive : b.live c = evs) :
    ∃ b' t, runOps c n (List.replicate evs.length .pop) b = .ok (b', t) ∧ Trace.popped t = evs := by
  induction evs generalizing n b with
  | nil => exact ⟨b, [], runOps_nil.mpr ⟨rfl, rfl⟩, rfl⟩
  | cons x evs ih =>
    have hne : b.headSeen c ≠ b.tail := fun heq => by
      have hocc : b.occ c = 0 := by rw [Block.occ, ← hseen, heq, ringSub_self]
      rw [Block.live, hocc] at hlive
      cases hlive
    obtain ⟨ev, hev⟩ := hi.tail_written hne
    rw [hi.live_eq_cons hne, hev] at hlive
    obtain ⟨rfl, hrest⟩ := List.cons.inj hlive
    have hpop : perform c n .pop b = .ok (((b.popTried c).latched c ev).consumed c, .event ev) :=
      Block.pop_ok.mpr (.inr (.inr ⟨hp, Block.isEmpty_eq_false.mpr hne, hi.tail_lt, ev, hev, rfl, rfl⟩))
    obtain ⟨b', t, hrun, hpopped⟩ := ih (Block.pop_inv hi hpop) hp hseen hrest
    exact ⟨b', _, runOps_cons_of_ok hpop hrun, by rw [Trace.popped_cons, hpopped]; rfl⟩

/-- Settles O52: the pushed events are all there is in the queue, SYNC_H shows HEAD to the consumer, and the pops take
them in order. -/
theorem pushedEventsArePoppedInOrder : Obligations.PushedEventsArePoppedInOrder := by
  intro c hwf n evs b b' t hi hp hocc h hok
  obtain ⟨hi', hp', hlive⟩ := runOps_pushes (Config.legal_of_wf hwf) hi h hok
  have hempty : b.live c = [] := by rw [Block.live, hocc]; rfl
  rw [hempty, List.nil_append] at hlive
  obtain ⟨b'', t', hrun, hpopped⟩ := runOps_pops (b := b'.headCopied c) hi'.headCopied
    (hp'.trans hp) (Block.headCopied_headSeen c b') hlive
  rw [List.length_map] at hrun
  exact ⟨b'', _, runOps_cons_of_ok rfl hrun, by rw [Trace.popped_cons, hpopped]; rfl⟩

end Sys2Proof.Machine
end

section
/-! PROOFS. The crossing (20_memory R66): the code an index crosses as changes one bit when the index advances, and is
read back by the other side. -/

namespace Sys2Proof.Machine

/-! ### The reflected code (R66) -/

/-- Bit `j` of the code of a number. -/
def grayBit (v j : Nat) : Bool := v.testBit j ^^ v.testBit (j + 1)

/-- The bits of a code word are those of the code of its number. -/
theorem getLsbD_gray_ofNat {w v j : Nat} (hv : v < 2 ^ w) (hj : j < w) :
    (gray (BitVec.ofNat w v)).getLsbD j = grayBit v j := by
  have htop : (BitVec.ofNat w v).getLsbD (j + 1) = v.testBit (j + 1) := by
    rw [BitVec.getLsbD_ofNat]
    by_cases hlast : j + 1 < w
    · simp [hlast]
    · have hle : 2 ^ w ≤ 2 ^ (j + 1) := Nat.pow_le_pow_right two_pos (Nat.not_lt.mp hlast)
      simp [hlast, Nat.testBit_lt_two_pow (hv.trans_le hle)]
  rw [gray, BitVec.getLsbD_xor, BitVec.getLsbD_ushiftRight, Nat.add_comm 1 j, htop, BitVec.getLsbD_ofNat]
  simp [hj, grayBit]

/-- The code of twice a number and one bit is, above the lowest bit, the code of the number. -/
theorem grayBit_succ (v j : Nat) : grayBit v (j + 1) = grayBit (v / 2) j := by
  simp only [grayBit, Nat.testBit_succ]

/-- The lowest bit of the code compares the two lowest bits of the number. -/
theorem grayBit_zero (v : Nat) : grayBit v 0 = (decide (v % 2 = 1) ^^ decide (v / 2 % 2 = 1)) := by
  rw [grayBit, Nat.testBit_succ, Nat.testBit_zero, Nat.testBit_zero]

/-- Counting up changes one bit of the code: the lowest one after an even number, and after an odd one that which
counting up its half changes. -/
theorem exists_grayBit_flip (v : Nat) : ∃ k, ∀ j ≠ k, grayBit (v + 1) j = grayBit v j := by
  induction v using Nat.strong_induction_on with
  | _ v ih =>
    rcases Nat.even_or_odd' v with ⟨m, rfl | rfl⟩
    · refine ⟨0, fun j hj => ?_⟩
      obtain ⟨i, rfl⟩ := Nat.exists_eq_succ_of_ne_zero hj
      rw [Nat.succ_eq_add_one, grayBit_succ, grayBit_succ, show (2 * m + 1) / 2 = 2 * m / 2 by omega]
    · obtain ⟨k, hk⟩ := ih m (by omega)
      refine ⟨k + 1, fun j hj => ?_⟩
      cases j with
      | zero =>
        rw [grayBit_zero, grayBit_zero, show (2 * m + 1 + 1) / 2 = m + 1 by omega, show (2 * m + 1) / 2 = m by omega]
        rcases Nat.mod_two_eq_zero_or_one m with hm | hm <;> simp [Nat.add_mod, hm]
      | succ i =>
        rw [grayBit_succ, grayBit_succ, show (2 * m + 1 + 1) / 2 = m + 1 by omega, show (2 * m + 1) / 2 = m by omega]
        exact hk i fun heq => hj (congrArg (· + 1) heq)

/-- From the greatest index back to the least the code changes in its top bit only: the two numbers are each other's
complement. -/
theorem grayBit_complement {w v j : Nat} (hv : v < 2 ^ w) (hj : j + 1 < w) :
    grayBit (2 ^ w - (v + 1)) j = grayBit v j := by
  rw [grayBit, Nat.testBit_two_pow_sub_succ hv, Nat.testBit_two_pow_sub_succ hv]
  simp [hj, Nat.lt_of_succ_lt hj, grayBit]

/-- A glimpse of two words that differ in one bit at most is one of them. -/
theorem glimpse_of_flip {w : Nat} {old new : BitVec w} {k : Nat} (pick : BitVec w)
    (h : ∀ j < w, j ≠ k → new.getLsbD j = old.getLsbD j) : glimpse pick old new = old ∨ glimpse pick old new = new := by
  have hbit : ∀ j < w, (glimpse pick old new).getLsbD j =
      bif pick.getLsbD j then old.getLsbD j else new.getLsbD j := fun j hj => by
    rw [glimpse, BitVec.getLsbD_or, BitVec.getLsbD_and, BitVec.getLsbD_and, BitVec.getLsbD_not]
    cases pick.getLsbD j <;> simp [hj]
  cases hk : pick.getLsbD k with
  | true =>
    refine .inl (BitVec.eq_of_getLsbD_eq fun j hj => ?_)
    rw [hbit j hj]
    by_cases hjk : j = k
    · rw [hjk, hk, cond_true]
    · rw [h j hj hjk, Bool.cond_self]
  | false =>
    refine .inr (BitVec.eq_of_getLsbD_eq fun j hj => ?_)
    rw [hbit j hj]
    by_cases hjk : j = k
    · rw [hjk, hk, cond_false]
    · rw [h j hj hjk, Bool.cond_self]

variable {c : Config} {b b' : Block c.toShape} {r : Result c.toShape}

/-- The offset leaves as many words unused below the indices as above (R10, R66). -/
theorem two_mul_gOff_add_qsize (hc : c.Legal) : 2 * c.gOff + c.qsize = 2 ^ c.idxW := by
  have hq := hc.qsize_two_le
  have heven := hc.qsize_even
  have hw : c.idxW = Nat.log2 (c.qsize - 1) + 1 := by rw [hc.idxW_eq, ceilLog2, if_neg (by omega)]
  have hle : c.qsize - 1 < 2 ^ c.idxW := hw ▸ Nat.lt_log2_self
  have hpow : 2 ^ c.idxW = 2 * 2 ^ Nat.log2 (c.qsize - 1) := by rw [hw, pow_succ, mul_comm]
  have hoff := hc.gOff_eq
  omega

/-- An index and the next one cross as words that differ in one bit at most, the wrap included. -/
theorem exists_wireWord_flip (hc : c.Legal) {i : Nat} (hi : i < c.qsize) :
    ∃ k, ∀ j < c.idxW, j ≠ k → (wireWord c (nextIndex c i)).getLsbD j = (wireWord c i).getLsbD j := by
  have hfit := two_mul_gOff_add_qsize hc
  have hnext : nextIndex c i < c.qsize := nextIndex_lt i (by omega)
  have hword : ∀ i < c.qsize, ∀ j < c.idxW, (wireWord c i).getLsbD j = grayBit (i + c.gOff) j :=
    fun i hi j hj => getLsbD_gray_ofNat (by omega) hj
  rw [nextIndex_eq hi] at hnext ⊢
  split at hnext
  · next hlast =>
    refine ⟨c.idxW - 1, fun j hj hne => ?_⟩
    rw [if_pos hlast, hword _ hnext j hj, hword i hi j hj,
      show i + c.gOff = 2 ^ c.idxW - (0 + c.gOff + 1) by omega, grayBit_complement (by omega) (by omega)]
  · next hlast =>
    obtain ⟨k, hk⟩ := exists_grayBit_flip (i + c.gOff)
    refine ⟨k, fun j hj hne => ?_⟩
    rw [if_neg hlast, hword _ hnext j hj, hword i hi j hj, Nat.add_right_comm, hk j hne]

/-- Settles O53: the two words differ in one bit at most. -/
theorem glimpsedWordIsOldOrNew : Obligations.GlimpsedWordIsOldOrNew := by
  intro c hwf i pick hi
  obtain ⟨k, hk⟩ := exists_wireWord_flip (Config.legal_of_wf hwf) hi
  exact glimpse_of_flip pick hk

/-! ### Decoding the wires (R66) -/

/-- The shifts of a code word from 0 to `m - 1` add up to the word and its shift by `m`: all between cancels. -/
theorem foldl_gray {w : Nat} (v : BitVec w) (m : Nat) :
    (List.range m).foldl (fun u k => u ^^^ (gray v >>> k)) 0#w = v ^^^ (v >>> m) := by
  induction m with
  | zero => simp
  | succ m ih =>
    rw [List.range_succ, List.foldl_append, ih, List.foldl_cons, List.foldl_nil, gray, BitVec.ushiftRight_xor_distrib,
      ← BitVec.shiftRight_add, Nat.add_comm 1 m]
    rw [BitVec.xor_assoc, ← BitVec.xor_assoc (v >>> m), BitVec.xor_self, BitVec.zero_xor]

theorem ungray_gray {w : Nat} (v : BitVec w) : ungray (gray v) = v := by
  rw [ungray, foldl_gray, BitVec.ushiftRight_eq_zero le_rfl, BitVec.xor_zero]

/-- Every index is read back from its word. -/
theorem wireIndex_wireWord (hc : c.Legal) {i : Nat} (hi : i < c.qsize) : wireIndex c (wireWord c i) = some i := by
  have hfit := two_mul_gOff_add_qsize hc
  have hv : (ungray (wireWord c i)).toNat = i + c.gOff := by
    rw [wireWord, ungray_gray, BitVec.toNat_ofNat, Nat.mod_eq_of_lt (by omega)]
  rw [wireIndex, hv, if_pos (by omega), Nat.add_sub_cancel]

/-- Settles O54: what the other side reads back is the index a SYNC step copies. -/
theorem wiresCarryTheIndex : Obligations.WiresCarryTheIndex := by
  intro c hwf
  have hc := Config.legal_of_wf hwf
  refine ⟨fun i hi => wireIndex_wireWord hc hi, fun b hmode hhead htail => ⟨?_, ?_⟩⟩
  · rw [Block.headReceived, wireIndex_wireWord hc hhead, Block.syncH, Block.headCopied_of_graySync hmode]
    rfl
  · rw [Block.tailReceived, wireIndex_wireWord hc htail, Block.syncT, Block.tailCopied_of_graySync hmode]
    rfl

end Sys2Proof.Machine
end

section
/-! PROOFS. One clock domain (20_memory R67): every operation in SAME_DOMAIN is the operation in GRAY_SYNC with copies
that are up to date, and leaves what a SYNC_H and a SYNC_T bring up to date. -/

namespace Sys2Proof.Machine

/-- The configuration with both sides in one domain. -/
def Config.inOneDomain (c : Config) : Config := { c with cdc := .sameDomain }

/-- The configuration with a copy of each index on the other side. -/
def Config.acrossDomains (c : Config) : Config := { c with cdc := .graySync }

/-- Both copies as a SYNC_H and a SYNC_T leave them. -/
def Block.caughtUp {σ : Shape} (b : Block σ) : Block σ := { b with headC := b.head, tailP := b.tail }

variable {c : Config} {b b' : Block c.toShape} {r : Result c.toShape}

/-- An operation across domains answers `r`, and the block `b'` once both copies are up to date. In one domain a side
tests the other's index itself, so from copies that are up to date the tests come out the same. -/
def Answers (b' : Block c.toShape) (r : Result c.toShape) (k : Completion (Config.acrossDomains c)) : Prop :=
  ∃ b₁ : Block c.toShape, k = .ok (b₁, r) ∧ b₁.caughtUp = b'.caughtUp

theorem Block.encEdge_caughtUp {e : Nat} {a p : Bool} (h : b.encEdge (Config.inOneDomain c) e a p = .ok (b', r)) :
    Answers b' r (b.caughtUp.encEdge (Config.acrossDomains c) e a p) := by
  rcases Block.encEdge_ok.mp h with ⟨he, rfl, rfl⟩ | ⟨ch, rfl, rfl, rfl⟩
  · exact ⟨_, Block.encEdge_ok.mpr (.inl ⟨he, rfl, rfl⟩), rfl⟩
  · exact ⟨_, Block.encEdge_ok.mpr (.inr ⟨ch, rfl, rfl, rfl⟩), rfl⟩

theorem Block.acceptPress_caughtUp {n : Fin c.nBtn} {now : BitVec c.tsW}
    (h : b.acceptPress (Config.inOneDomain c) n now = .ok (b', r)) :
    Answers b' r (b.caughtUp.acceptPress (Config.acrossDomains c) n now) := by
  rcases Block.acceptPress_ok.mp h with ⟨hf, rfl, rfl⟩ | ⟨hf, hhead, rfl, rfl⟩
  · exact ⟨_, Block.acceptPress_ok.mpr (.inl ⟨hf, rfl, rfl⟩), rfl⟩
  · exact ⟨_, Block.acceptPress_ok.mpr (.inr ⟨hf, hhead, rfl, rfl⟩), rfl⟩

/-- The lockout reads no index. -/
theorem Block.lockedOut_caughtUp (n : Fin c.nBtn) (now : BitVec c.tsW) :
    b.lockedOut (Config.inOneDomain c) n now = b.caughtUp.lockedOut (Config.acrossDomains c) n now := rfl

theorem Block.btnEdge_caughtUp {k : Nat} {lvl rs : Level} {now : Nat}
    (h : b.btnEdge (Config.inOneDomain c) k lvl rs now = .ok (b', r)) :
    Answers b' r (b.caughtUp.btnEdge (Config.acrossDomains c) k lvl rs now) := by
  rcases Block.btnEdge_ok.mp h with ⟨hk, rfl, rfl⟩ | ⟨n, rfl, ⟨hw, rfl, rfl⟩ | ⟨hw, hpath⟩⟩
  · exact ⟨_, Block.btnEdge_ok.mpr (.inl ⟨hk, rfl, rfl⟩), rfl⟩
  · replace hw := (Block.lockedOut_caughtUp _ _).symm.trans hw
    exact ⟨_, Block.btnEdge_of_lockedOut (c := Config.acrossDomains c) (n := n) hw lvl rs, rfl⟩
  · replace hw := (Block.lockedOut_caughtUp _ _).symm.trans hw
    rcases hpath with ⟨rfl, rfl, rfl⟩ | ⟨rfl, hl, rfl, rfl⟩ | ⟨rfl, hl, rfl, rfl, rfl⟩ | ⟨rfl, hl, rfl, haccept⟩
    · exact ⟨_, Block.btnEdge_of_released (c := Config.acrossDomains c) (n := n) hw rs, rfl⟩
    · exact ⟨_, Block.btnEdge_of_pressed (c := Config.acrossDomains c) (n := n) hw hl rs, rfl⟩
    · exact ⟨_, Block.btnEdge_of_glitch (c := Config.acrossDomains c) (n := n) hw hl, rfl⟩
    · obtain ⟨b₁, haccept', hsame⟩ := Block.acceptPress_caughtUp haccept
      exact ⟨b₁, Block.btnEdge_of_confirmed (c := Config.acrossDomains c) (n := n) hw hl haccept', hsame⟩

theorem Block.push_caughtUp {k : Nat} {kind : Kind} {ts : Nat}
    (h : b.push (Config.inOneDomain c) k kind ts = .ok (b', r)) :
    Answers b' r (b.caughtUp.push (Config.acrossDomains c) k kind ts) := by
  rcases Block.push_ok.mp h with ⟨hk, rfl, rfl⟩ | ⟨n, rfl, ⟨hf, rfl, rfl⟩ | ⟨hf, hhead, rfl, rfl⟩⟩
  · exact ⟨_, Block.push_ok.mpr (.inl ⟨hk, rfl, rfl⟩), rfl⟩
  · exact ⟨_, Block.push_ok.mpr (.inr ⟨n, rfl, .inl ⟨hf, rfl, rfl⟩⟩), rfl⟩
  · exact ⟨_, Block.push_ok.mpr (.inr ⟨n, rfl, .inr ⟨hf, hhead, rfl, rfl⟩⟩), rfl⟩

theorem Block.drain_caughtUp (h : b.drain (Config.inOneDomain c) = .ok (b', r)) :
    Answers b' r (b.caughtUp.drain (Config.acrossDomains c)) := by
  rcases Block.drain_ok.mp h with ⟨hp, rfl, rfl⟩ | ⟨hp, rfl, rfl⟩
  · exact ⟨_, Block.drain_ok.mpr (.inl ⟨hp, rfl, rfl⟩), rfl⟩
  · exact ⟨_, Block.drain_ok.mpr (.inr ⟨hp, rfl, rfl⟩), rfl⟩

theorem Block.popChk_caughtUp (h : b.popChk (Config.inOneDomain c) = .ok (b', r)) :
    Answers b' r (b.caughtUp.popChk (Config.acrossDomains c)) := by
  rcases Block.popChk_ok.mp h with ⟨hp, rfl, rfl⟩ | ⟨hp, he, rfl, rfl⟩ | ⟨hp, he, rfl, rfl⟩
  · exact ⟨_, Block.popChk_ok.mpr (.inl ⟨hp, rfl, rfl⟩), rfl⟩
  · exact ⟨_, Block.popChk_ok.mpr (.inr (.inl ⟨hp, he, rfl, rfl⟩)), rfl⟩
  · exact ⟨_, Block.popChk_ok.mpr (.inr (.inr ⟨hp, he, rfl, rfl⟩)), rfl⟩

theorem Block.popRd_caughtUp (h : b.popRd (Config.inOneDomain c) = .ok (b', r)) :
    Answers b' r (b.caughtUp.popRd (Config.acrossDomains c)) := by
  rcases Block.popRd_ok.mp h with ⟨hp, rfl, rfl⟩ | ⟨hp, htail, ev, hev, rfl, rfl⟩
  · exact ⟨_, Block.popRd_ok.mpr (.inl ⟨hp, rfl, rfl⟩), rfl⟩
  · exact ⟨_, Block.popRd_ok.mpr (.inr ⟨hp, htail, ev, hev, rfl, rfl⟩), rfl⟩

theorem Block.popPub_caughtUp (h : b.popPub (Config.inOneDomain c) = .ok (b', r)) :
    Answers b' r (b.caughtUp.popPub (Config.acrossDomains c)) := by
  rcases Block.popPub_ok.mp h with ⟨hp, rfl, rfl⟩ | ⟨hp, ev, hlatch, rfl, rfl⟩
  · exact ⟨_, Block.popPub_ok.mpr (.inl ⟨hp, rfl, rfl⟩), rfl⟩
  · exact ⟨_, Block.popPub_ok.mpr (.inr ⟨hp, ev, hlatch, rfl, rfl⟩), rfl⟩

theorem Block.pop_caughtUp (h : b.pop (Config.inOneDomain c) = .ok (b', r)) :
    Answers b' r (b.caughtUp.pop (Config.acrossDomains c)) := by
  rcases Block.pop_ok.mp h with ⟨hp, rfl, rfl⟩ | ⟨hp, he, rfl, rfl⟩ | ⟨hp, he, htail, ev, hev, rfl, rfl⟩
  · exact ⟨_, Block.pop_ok.mpr (.inl ⟨hp, rfl, rfl⟩), rfl⟩
  · exact ⟨_, Block.pop_ok.mpr (.inr (.inl ⟨hp, he, rfl, rfl⟩)), rfl⟩
  · exact ⟨_, Block.pop_ok.mpr (.inr (.inr ⟨hp, he, htail, ev, hev, rfl, rfl⟩)), rfl⟩

theorem Block.size_caughtUp (h : b.size (Config.inOneDomain c) = .ok (b', r)) :
    Answers b' r (b.caughtUp.size (Config.acrossDomains c)) := by
  obtain ⟨rfl, hr⟩ := Block.size_ok.mp h
  exact ⟨_, Block.size_ok.mpr ⟨rfl, hr⟩, rfl⟩

/-- A read of a diagnostics register depends on no index. -/
theorem Block.rddiag_caughtUp {n : Nat} {k : DiagReg} (h : b.rddiag (Config.inOneDomain c) n k = .ok (b', r)) :
    Answers b' r (b.caughtUp.rddiag (Config.acrossDomains c) n k) := by
  obtain ⟨rfl, hr⟩ := Block.rddiag_ok.mp h
  refine ⟨_, Block.rddiag_ok.mpr ⟨rfl, ?_⟩, rfl⟩
  cases k <;> exact hr

/-- Every operation in one domain has its answer across domains, from copies that are up to date. -/
theorem perform_caughtUp {n : Nat} {i : Instr} (h : perform (Config.inOneDomain c) n i b = .ok (b', r)) :
    Answers b' r (perform (Config.acrossDomains c) n i b.caughtUp) := by
  cases i with
  | encEdge e a p => exact Block.encEdge_caughtUp h
  | btnEdge k lvl rs now => exact Block.btnEdge_caughtUp h
  | push k kind ts => exact Block.push_caughtUp h
  | drain => exact Block.drain_caughtUp h
  | popChk => exact Block.popChk_caughtUp h
  | popRd => exact Block.popRd_caughtUp h
  | popPub => exact Block.popPub_caughtUp h
  | pop => exact Block.pop_caughtUp h
  | size => exact Block.size_caughtUp h
  | rddiag0 | rddiag1 | rddiag2 | rddiag3 | rddiag4 | rddiag5 => exact Block.rddiag_caughtUp h
  | syncH | syncT | reset =>
    cases h
    exact ⟨_, rfl, rfl⟩

/-- Settles O55: a SYNC_H and a SYNC_T bring both copies up to date. -/
theorem sameDomainIsGraySyncWithoutLag : Obligations.SameDomainIsGraySyncWithoutLag := by
  intro c n i b b' r h
  obtain ⟨b₁, hperform, hsame⟩ := perform_caughtUp (c := c) h
  refine ⟨b₁, { b₁ with headC := b₁.head }, hperform, rfl, ?_⟩
  change Except.ok (b₁.caughtUp, _) = Except.ok (b'.caughtUp, _)
  rw [hsame]

end Sys2Proof.Machine
end

section
/-! PROOFS. The dispatcher's accesses (43_dispatcher_and_system): DRAIN (R170) and RDDIAG (R175, R72). -/

namespace Sys2Proof.Machine

/-- DRAIN in phase IDLE clears what it returns (R170). -/
theorem exec_drain {s : State} (hp : s.block.popPhase = .idle) :
    exec .drain s = .next { s with
      block := s.block.cleared Config.hw, ret := some (.drained s.block.acc s.block.encActivity) } :=
  exec_next.mpr ⟨_, _, Block.drain_ok.mpr (.inr ⟨hp, rfl, rfl⟩), rfl⟩

/-- Settles O56: DRAIN's named update writes the accumulators and the flag. -/
theorem drainCompletes : Obligations.DrainCompletes :=
  fun _ hp => ⟨_, exec_drain hp, rfl, rfl, fun _ he => Vector.getElem_replicate he⟩

/-- Without activity every accumulator is zero (R170 d). -/
theorem Block.Inv.acc_eq_zero {c : Config} {b : Block c.toShape} (h : b.Inv c) (hact : b.encActivity = false) :
    b.acc = Vector.replicate c.nEnc 0#c.accW :=
  Vector.ext fun e he => (h.quiet hact ⟨e, he⟩).trans (Vector.getElem_replicate he).symm

/-- Settles O57: what DRAIN would clear is clear already. -/
theorem drainWithoutActivityReturnsZeros : Obligations.DrainWithoutActivityReturnsZeros := by
  intro s t v hi h hret
  obtain ⟨b, r, hdrain, rfl⟩ := exec_next.mp h
  rcases Block.drain_ok.mp hdrain with ⟨-, -, rfl⟩ | ⟨-, rfl, rfl⟩
  · cases hret
  · obtain ⟨rfl, hact⟩ : s.block.acc = v ∧ s.block.encActivity = false := by simpa using hret
    have hzero := Block.Inv.acc_eq_zero hi hact
    exact ⟨hzero, by rw [Block.cleared, ← hzero, ← hact]⟩

/-- RDDIAG in phase IDLE reads its register and writes nothing (R175). -/
theorem Block.rddiag_of_idle {c : Config} {b : Block c.toShape} (hp : b.popPhase = .idle) (n : Nat) (k : DiagReg) :
    b.rddiag c n k = .ok (b, .diag (b.diagRead c n k)) :=
  Block.rddiag_ok.mpr ⟨rfl, .inr ⟨hp, rfl⟩⟩

/-- Settles O58: DIAG_ATOMIC holds at this hardware's values, so each read is of the exact register. -/
theorem rddiagCompletes : Obligations.RddiagCompletes := by
  intro s hp
  have hread := fun k => Block.rddiag_of_idle (c := Config.hw) hp s.sp k
  exact ⟨exec_next.mpr ⟨_, _, hread .pushAtt, rfl⟩, exec_next.mpr ⟨_, _, hread .pushOk, rfl⟩,
    exec_next.mpr ⟨_, _, hread .popAtt, rfl⟩, exec_next.mpr ⟨_, _, hread .popOk, rfl⟩,
    exec_next.mpr ⟨_, _, hread .dropCnt, rfl⟩,
    zext 32 s.block.lastCh, exec_next.mpr ⟨_, _, hread .lastCh, rfl⟩, zext_toNat _ (by decide)⟩

section Relaxed

variable {c : Config} (hc : c.diagAtomic = false) (n : Nat) (b : Block c.toShape)

include hc

/-- The consumer's own counters are read exactly in both modes (R72). -/
theorem Block.diagRead_pop_counters :
    b.diagRead c n .popAtt = b.popAtt ∧ b.diagRead c n .popOk = b.popOk := by
  simp [Block.diagRead, hc, Block.diagExact]

/-- Without DIAG_ATOMIC the draw for LAST_CH has CH_W bits (R72). -/
theorem Block.diagRead_lastCh : b.diagRead c n .lastCh = zext c.diagW (freeDiagnostic c.chW n) := by
  simp [Block.diagRead, hc]

end Relaxed

/-- Settles O59: a draw for LAST_CH, zero-extended, keeps the bound of its CH_W bits. -/
theorem relaxedDiagnosticsReads : Obligations.RelaxedDiagnosticsReads := by
  intro c n b hc hp hwidth
  have hread := fun k => Block.rddiag_of_idle hp n k
  obtain ⟨hatt, hok⟩ := Block.diagRead_pop_counters hc n b
  refine ⟨hatt ▸ hread .popAtt, hok ▸ hread .popOk, ⟨_, hread .lastCh, ?_⟩, ⟨_, hread .pushAtt⟩, ⟨_, hread .pushOk⟩,
    ⟨_, hread .dropCnt⟩⟩
  rw [Block.diagRead_lastCh hc, zext_toNat _ hwidth]
  exact BitVec.isLt _

end Sys2Proof.Machine
end
